-- ==== Sys2Proof/Word.lean ====
section
/-! DEFINITION. The word types of the machine. All values are unsigned (spec rule R7). -/

namespace Sys2Proof

/-- A register, timer or memory cell: 8 bits (R21, R27, R28, R29). -/
abbrev Byte := BitVec 8

/-- An instruction word, `PC`, `I` or a call stack slot: 16 bits (R23, R24, R26, R80). -/
abbrev Word := BitVec 16

/-- A register index `X`, `Y`, a row count `N` or a key number: 4 bits (R81, R238). -/
abbrev Nibble := BitVec 4

/-- An address field `NNN`: 12 bits (R81). -/
abbrev Addr := BitVec 12

end Sys2Proof
end

