-- ==== Sys2Proof/Syntax.lean ====
section
/-! DEFINITION. The instructions: one constructor per row of spec/opcode_table.json, with the payload rule R91 gives
it. -/

namespace Sys2Proof

/-- The decoder's result (R91): the 34 recognized shapes with their payloads, and `Unrecognized`, which carries nothing.
`SYS addr`, the 35th row of the opcode map (R90), has no operation of its own: all its words decode to `Unrecognized`
(R88). -/
inductive Instr where
  /-- `00E0` CLS -/
  | cls
  /-- `00EE` RET -/
  | ret
  /-- `Unrecognized`: `0NNN` SYS addr with `NNN` other than `0E0` and `0EE` (R88), and every other word that matches no
  recognized shape (R93) -/
  | unrecognized
  /-- `1NNN` JP addr -/
  | jp (nnn : Addr)
  /-- `2NNN` CALL addr -/
  | call (nnn : Addr)
  /-- `3XKK` SE Vx, byte -/
  | seImm (x : Nibble) (kk : Byte)
  /-- `4XKK` SNE Vx, byte -/
  | sneImm (x : Nibble) (kk : Byte)
  /-- `5XY-` SE Vx, Vy -/
  | seReg (x y : Nibble)
  /-- `6XKK` LD Vx, byte -/
  | ldImm (x : Nibble) (kk : Byte)
  /-- `7XKK` ADD Vx, byte -/
  | addImm (x : Nibble) (kk : Byte)
  /-- `8XY0` LD Vx, Vy -/
  | ldReg (x y : Nibble)
  /-- `8XY1` OR Vx, Vy -/
  | orReg (x y : Nibble)
  /-- `8XY2` AND Vx, Vy -/
  | andReg (x y : Nibble)
  /-- `8XY3` XOR Vx, Vy -/
  | xorReg (x y : Nibble)
  /-- `8XY4` ADD Vx, Vy -/
  | addReg (x y : Nibble)
  /-- `8XY5` SUB Vx, Vy -/
  | sub (x y : Nibble)
  /-- `8XY6` SHR Vx; `Y` is carried and ignored -/
  | shr (x y : Nibble)
  /-- `8XY7` SUBN Vx, Vy -/
  | subn (x y : Nibble)
  /-- `8XYE` SHL Vx; `Y` is carried and ignored -/
  | shl (x y : Nibble)
  /-- `9XY-` SNE Vx, Vy -/
  | sneReg (x y : Nibble)
  /-- `ANNN` LD I, addr -/
  | ldI (nnn : Addr)
  /-- `BNNN` JP V0, addr -/
  | jpV0 (nnn : Addr)
  /-- `CXKK` RND Vx, byte -/
  | rnd (x : Nibble) (kk : Byte)
  /-- `DXYN` DRW Vx, Vy, n -/
  | drw (x y n : Nibble)
  /-- `EX9E` SKP Vx -/
  | skp (x : Nibble)
  /-- `EXA1` SKNP Vx -/
  | sknp (x : Nibble)
  /-- `FX07` LD Vx, DT -/
  | ldVxDt (x : Nibble)
  /-- `FX0A` LD Vx, K -/
  | ldVxK (x : Nibble)
  /-- `FX15` LD DT, Vx -/
  | ldDtVx (x : Nibble)
  /-- `FX18` LD ST, Vx -/
  | ldStVx (x : Nibble)
  /-- `FX1E` ADD I, Vx -/
  | addI (x : Nibble)
  /-- `FX29` LD F, Vx -/
  | ldF (x : Nibble)
  /-- `FX33` LD B, Vx -/
  | ldB (x : Nibble)
  /-- `FX55` LD [I], Vx -/
  | storeRegs (x : Nibble)
  /-- `FX65` LD Vx, [I] -/
  | loadRegs (x : Nibble)
deriving DecidableEq, Repr

/-- The spelling `SYS addr` (R94). It is no operation of its own: whatever `NNN` is, it is `Unrecognized` (R88). -/
abbrev Instr.sys (_nnn : Addr) : Instr := .unrecognized

end Sys2Proof
end

