-- ==== Sys2Proof/WellFormed.lean ====
section
/-! DEFINITION. Which terms of `Instr` are recognized instructions. Field widths are in the types; the one check left is
that the term is one of the 34 recognized shapes. -/

namespace Sys2Proof

/-- The 34 recognized shapes are well formed with every operand (R83: all 16 register indices are legal); `Unrecognized`
is what the decoder says of a word that is none of them (R88, R91). -/
def Instr.wellFormed : Instr → Bool
  | .unrecognized => false
  | .cls | .ret | .jp _ | .call _ | .seImm _ _ | .sneImm _ _ | .seReg _ _ | .ldImm _ _ | .addImm _ _ => true
  | .ldReg _ _ | .orReg _ _ | .andReg _ _ | .xorReg _ _ | .addReg _ _ | .sub _ _ | .shr _ _ | .subn _ _ => true
  | .shl _ _ | .sneReg _ _ | .ldI _ | .jpV0 _ | .rnd _ _ | .drw _ _ _ | .skp _ | .sknp _ | .ldVxDt _ => true
  | .ldVxK _ | .ldDtVx _ | .ldStVx _ | .addI _ | .ldF _ | .ldB _ | .storeRegs _ | .loadRegs _ => true

end Sys2Proof
end

