-- ==== Sys2Proof/Config.lean ====
section
/-! DEFINITION. What the implementation fixes (R5, R6) and the values the spec leaves open. -/

namespace Sys2Proof

/-- The program load address and the reset value of `PC` (R5, R51). -/
def Config.programStart : Word := 0x0200#16

/-- The nominal rate by which the host turns elapsed time into cycles (R6, R119). No rule of the core uses it. -/
def Config.cyclesPerSecond : Nat := 600

/-- FREE VALUE (log 1): the random byte of the `n`-th draw. R37 and R163 put no law on it (decision D16), so it has
no body: a statement about it holds for every sequence of bytes. -/
opaque Config.rnd : Nat → Byte

/-- OPEN PARAMETER (log 17): how many cycles the host runs for an elapsed duration, given in seconds (R119, decision
D21). Outside the core; no body. -/
opaque Config.cyclesFor : Rat → Nat

end Sys2Proof
end

