-- ==== Sys2Proof/Machine/State.lean ====
section
/-! DEFINITION. The state of the machine, as plain data (R20), and its value after reset (R40, R260). -/

namespace Sys2Proof.Machine

/-- Memory as a list of cells in one canonical form (`Memory.wf` in Ops.lean): addresses strictly rising, and no
entry equal to what an unlisted address reads as. -/
abbrev Memory := List Host.Cell

/-- The frame buffer, `disp[x][y]`: 64 columns of 32 pixels (R33). -/
abbrev Display := Vector (Vector Bool 32) 64

/-- The operations of the host (R236 to R241), each atomic and strictly between cycles or one cycle (R228). -/
inductive HostOp where
  /-- `reset()` (R236, R260) -/
  | reset
  /-- `load(a, bytes)`: any start address (R237) -/
  | load (a : Nat) (bytes : List Byte)
  /-- `press(k)` (R238) -/
  | press (k : Nibble)
  /-- `release(k)` (R239) -/
  | release (k : Nibble)
  /-- `ack_redraw()` (R240) -/
  | ackRedraw
  /-- `cycle(rnd)`: the core's own step (R241, R110); the random byte is the free value of Config -/
  | cycle
deriving DecidableEq, Repr

/-- The complete state (R20) and four fields of the model's own: `soundPulse` and `pulses` (an output, R36), `draws` (the
random input, R37) and `hostOps` (what the host has asked for, R228). -/
structure State where
  /-- `V[0..15]` (R21); `V[15]` is the flag register (R22) -/
  v : Vector Byte 16
  /-- the index register `I` (R24) -/
  i : Word
  /-- the program counter (R23) -/
  pc : Word
  /-- the stack pointer: 8 bits, value 0 to 15 (R25) -/
  sp : Byte
  /-- the call stack `STACK[0..15]` (R26) -/
  stack : Vector Word 16
  /-- `MEM[0..4095]` (R29) -/
  mem : Memory
  /-- `DISP` (R33) -/
  disp : Display
  /-- the delay timer (R27) -/
  dt : Byte
  /-- the sound timer (R28) -/
  st : Byte
  /-- `KEY[0..15]` (R32) -/
  key : Vector Bool 16
  /-- `WAIT`: `none` is mode running, `some r` is blocked on a key for register `r` (R34, R231) -/
  wait : Option Nibble
  /-- `REDRAW`, the needs-redraw flag (R35) -/
  redraw : Bool
  /-- MODEL (log 3): the output `sound_pulse` of the latest step: a cycle's pulse, and none for another operation (R36) -/
  soundPulse : Bool
  /-- MODEL (log 3): how many pulses there have been, the count of R36 -/
  pulses : Nat
  /-- MODEL (log 1): how many random bytes have been drawn; the next one is `Config.rnd draws` (R37) -/
  draws : Nat
  /-- MODEL (log 2): operations the host has asked for and that have not happened yet, oldest first; when none is
  left the host asks for a cycle (R10, R228) -/
  hostOps : List HostOp
deriving DecidableEq, Repr

/-- Reasons for a fault: there is none. No instruction, no fetch and no memory access can trap, fault, abort or stop
the core (R220). -/
inductive Fault
deriving DecidableEq, Repr

/-- Reasons for a refusal. -/
inductive Refusal where
  /-- Raised by an arm of `exec` for an instruction that has no meaning yet; no arm raises it now. Safe: the model stops
  where the hardware goes on. -/
  | notModelled (mnemonic : String)
deriving DecidableEq, Repr

/-- The machine right after reset (R40, R260), which is also the power-on state (R261). No cell is listed: an unlisted
address reads as its reset contents, the font at 0 to 79 and zero above (R30). DESIGN CHOICE for the model's own
fields (logs 1, 2, 3). -/
def State.reset : State where
  v := Vector.replicate 16 0x00#8
  i := 0x0000#16
  pc := Config.programStart
  sp := 0x00#8
  stack := Vector.replicate 16 0x0000#16
  mem := []
  disp := Vector.replicate 64 (Vector.replicate 32 false)
  dt := 0x00#8
  st := 0x00#8
  key := Vector.replicate 16 false
  wait := none
  redraw := false
  soundPulse := false
  pulses := 0
  draws := 0
  hostOps := []

end Sys2Proof.Machine
end

