-- ==== Sys2Proof/Machine/Ops.lean ====
section
/-! DEFINITION. The named operations over memory, registers, call stack, timers and the program counter. Every read and
write of State goes through them. There is no operation that takes an exception and none that returns from one: the
core has neither (R220, R224, R226). -/

namespace Sys2Proof.Machine

/-! ### Memory -/

/-- `FONT`, glyph `d` at `5*d` to `5*d + 4`, top row first: the table of R31, the default of the parameter `FONT`
(R6, decision D30, log 4). -/
def fontTable : List Byte :=
  [0xF0, 0x90, 0x90, 0x90, 0xF0,
   0x20, 0x60, 0x20, 0x20, 0x70,
   0xF0, 0x10, 0xF0, 0x80, 0xF0,
   0xF0, 0x10, 0xF0, 0x10, 0xF0,
   0x90, 0x90, 0xF0, 0x10, 0x10,
   0xF0, 0x80, 0xF0, 0x10, 0xF0,
   0xF0, 0x80, 0xF0, 0x90, 0xF0,
   0xF0, 0x10, 0x20, 0x40, 0x40] ++
  [0xF0, 0x90, 0xF0, 0x90, 0xF0,
   0xF0, 0x90, 0xF0, 0x10, 0xF0,
   0xF0, 0x90, 0xF0, 0x90, 0x90,
   0xE0, 0x90, 0xE0, 0x90, 0xE0,
   0xF0, 0x80, 0x80, 0x80, 0xF0,
   0xE0, 0x90, 0x90, 0x90, 0xE0,
   0xF0, 0x80, 0xF0, 0x80, 0xF0,
   0xF0, 0x80, 0xF0, 0x80, 0x80]

/-- What a memory address that the list does not hold reads as: its reset contents (R30). -/
def unlistedByte (a : Nat) : Byte := fontTable.getD a 0x00#8

/-- The value the list holds for an address. -/
def Memory.find : Memory → Nat → Option Byte
  | [], _ => none
  | (b, v) :: m, a => if b = a then some v else Memory.find m a

/-- Place a cell before the first listed address that is not below it. -/
def Memory.place : Memory → Nat → Byte → Memory
  | [], a, v => [(a, v)]
  | (b, u) :: m, a, v => if b < a then (b, u) :: Memory.place m a v else (a, v) :: (b, u) :: m

/-- `MemRead(a, 1)`: a read above 4095 is rejected and gives 0x00 (R54). -/
def Memory.read (m : Memory) (a : Nat) : Byte :=
  if a < 4096 then (Memory.find m a).getD (unlistedByte a) else 0x00#8

/-- `MemWrite(a, 1, v)`: a write above 4095 is dropped (R55). Keeps the canonical form. -/
def Memory.write (m : Memory) (a : Nat) (v : Byte) : Memory :=
  if a < 4096 then
    let rest := m.filter fun c => c.1 != a
    if v = unlistedByte a then rest else Memory.place rest a v
  else m

/-- A multi-byte store: byte writes at ascending addresses, each checked on its own (R55, R59). Addresses are true
sums, with no wrap (R57). -/
def Memory.writeBytes (m : Memory) (a : Nat) : List Byte → Memory
  | [] => m
  | b :: bs => Memory.writeBytes (Memory.write m a b) (a + 1) bs

/-- `n` byte reads at ascending addresses (R54, R57, R59). -/
def Memory.readBytes (m : Memory) (a n : Nat) : List Byte := (List.range n).map fun k => Memory.read m (a + k)

/-- The canonical form: addresses strictly rising and all below 4096 (R39), no entry equal to what an unlisted address
reads as. -/
abbrev Memory.wf (m : Memory) : Prop :=
  m.Pairwise (fun c d => c.1 < d.1) ∧ ∀ c ∈ m, c.1 < 4096 ∧ c.2 ≠ unlistedByte c.1

/-- The byte of the machine's memory at an address. -/
def State.memRead (s : State) (a : Nat) : Byte := Memory.read s.mem a

/-- A multi-byte store into the machine's memory. -/
def State.store (s : State) (a : Nat) (bytes : List Byte) : State :=
  { s with mem := Memory.writeBytes s.mem a bytes }

/-! ### Registers and flags of state -/

/-- `V[r]` (R21). -/
def State.reg (s : State) (r : Nibble) : Byte := s.v[r.toNat]'r.isLt

/-- `V[r] <- b` (R21: no register is hard-wired). -/
def State.setReg (s : State) (r : Nibble) (b : Byte) : State := { s with v := s.v.set r.toNat b r.isLt }

/-- All sixteen registers at once. -/
def State.setRegs (s : State) (v : Vector Byte 16) : State := { s with v := v }

/-- `I <- w` (R24). -/
def State.setI (s : State) (w : Word) : State := { s with i := w }

/-- `PC <- w` (R23). -/
def State.setPc (s : State) (w : Word) : State := { s with pc := w }

/-- `SP <- b` (R25). -/
def State.setSp (s : State) (b : Byte) : State := { s with sp := b }

/-- `DT <- b` (R27). -/
def State.setDt (s : State) (b : Byte) : State := { s with dt := b }

/-- `ST <- b` (R28). -/
def State.setSt (s : State) (b : Byte) : State := { s with st := b }

/-- `DISP` replaced as a whole (R33). -/
def State.setDisp (s : State) (d : Display) : State := { s with disp := d }

/-- `KEY[k]` (R32). -/
def State.keyDown (s : State) (k : Nibble) : Bool := s.key[k.toNat]'k.isLt

/-- `KEY[k] <- b` (R32). -/
def State.setKey (s : State) (k : Nibble) (b : Bool) : State := { s with key := s.key.set k.toNat b k.isLt }

/-- `WAIT <- w` (R34). -/
def State.setWait (s : State) (w : Option Nibble) : State := { s with wait := w }

/-- `REDRAW <- b` (R35). -/
def State.setRedraw (s : State) (b : Bool) : State := { s with redraw := b }

/-- The output `sound_pulse` (R36). -/
def State.setSoundPulse (s : State) (b : Bool) : State := { s with soundPulse := b }

/-- The number of pulses so far (R36, log 3). -/
def State.setPulses (s : State) (n : Nat) : State := { s with pulses := n }

/-- The pulse of a cycle goes out and is counted (R36). -/
def State.pulse (s : State) (b : Bool) : State :=
  (s.setSoundPulse b).setPulses (if b then s.pulses + 1 else s.pulses)

/-- An operation that is no cycle makes no pulse (R36: every cycle produces one value, and nothing else does). -/
def State.noPulse (s : State) : State := s.setSoundPulse false

/-- The number of random bytes drawn (log 1). -/
def State.setDraws (s : State) (n : Nat) : State := { s with draws := n }

/-- The operations the host has asked for (log 2). -/
def State.setHostOps (s : State) (ops : List HostOp) : State := { s with hostOps := ops }

/-! ### The call stack -/

/-- `STACK[j]` (R26). `SP` is 8 bits wide and at most 15 in every reachable state (R25, R39); the index is taken
modulo 16, which changes nothing there (log 6). -/
def State.slot (s : State) (j : Byte) : Word := s.stack[j.toNat % 16]'(Nat.mod_lt _ (by decide))

/-- `STACK[j] <- w` (R26). -/
def State.setSlot (s : State) (j : Byte) (w : Word) : State :=
  { s with stack := s.stack.set (j.toNat % 16) w (Nat.mod_lt _ (by decide)) }

/-- `(SP + 1) mod 16` (R25). -/
def spUp (sp : Byte) : Byte := BitVec.ofNat 8 ((sp.toNat + 1) % 16)

/-- `(SP - 1) mod 16` (R25), the remainder of an integer, in 0 to 15. -/
def spDown (sp : Byte) : Byte := BitVec.ofNat 8 ((sp.toNat + 15) % 16)

/-! ### The program counter -/

/-- `PC <- (PC + 2) mod 65536` (R116). -/
def State.advance (s : State) : State := s.setPc (s.pc + 2#16)

/-- `PC <- (PC + 4) mod 65536` when the condition holds, else `PC <- (PC + 2) mod 65536` (R116, R138). -/
def State.skipIf (s : State) (c : Bool) : State := s.setPc (if c then s.pc + 4#16 else s.pc + 2#16)

/-! ### Parts of a cycle -/

/-- `MemRead(PC, 2)`: the bytes at `PC` and `PC + 1`, high byte first, each bounds-checked on its own, whatever the
parity of `PC` (R52, R53, R54, R111). -/
def State.fetchWord (s : State) : Word := wordOfBytes (s.memRead s.pc.toNat) (s.memRead (s.pc.toNat + 1))

/-- A timer counts down and stops at zero (R113). -/
def countDown (b : Byte) : Byte := if b = 0#8 then 0#8 else b - 1#8

/-- The timer tick of every cycle (R113): the pulse comes when `ST` goes from 1 to 0. -/
def State.tick (s : State) : State :=
  ((s.pulse (s.st == 1#8)).setSt (countDown s.st)).setDt (countDown s.dt)

/-- Where a word has to stand for the next step to fetch and run it, and the state with it placed there (log 15): the
bytes go at `PC`, or at the load address 0x200 with `PC` moved there when fewer than two cells remain; a key wait and
pending host operations, which would keep the step from executing, are taken away. -/
def State.placeNext (s : State) (bytes : List Byte) : State :=
  let at' : Word := if s.pc.toNat + 1 < 4096 then s.pc else Config.programStart
  (((s.setPc at').store at'.toNat bytes).setWait none).setHostOps []

end Sys2Proof.Machine
end

