-- ==== Sys2Proof/Machine/Flags.lean ====
section
/-! DEFINITION. The arithmetic results and the flag values written to `V[15]` (R22, R150, R162). Operands are natural
numbers, the exact result is compared, and the register keeps its low 8 bits. -/

namespace Sys2Proof.Machine

/-- The flag register's index (R22). -/
def flagReg : Nibble := 0xF#4

/-- A flag is written as exactly 0x00 or 0x01 (R22). -/
def flagByte (b : Bool) : Byte := if b then 0x01#8 else 0x00#8

/-- `(a + b) mod 256` (R150). -/
def addResult (a b : Byte) : Byte := BitVec.ofNat 8 ((a.toNat + b.toNat) % 256)

/-- 1 if `a + b > 255` (R157). -/
def addFlag (a b : Byte) : Bool := decide (a.toNat + b.toNat > 255)

/-- `(a - b) mod 256`, in 0 to 255 (R150). -/
def subResult (a b : Byte) : Byte := BitVec.ofNat 8 ((a.toNat + 256 - b.toNat) % 256)

/-- 1 if `a > b`, strictly: equal operands give 0 (R158, conflict C3). -/
def subFlag (a b : Byte) : Bool := decide (a.toNat > b.toNat)

/-- `a / 2` (R160). -/
def shrResult (a : Byte) : Byte := BitVec.ofNat 8 (a.toNat / 2)

/-- Bit 0 of the old value (R160). -/
def shrFlag (a : Byte) : Bool := decide (a.toNat % 2 = 1)

/-- `(a * 2) mod 256` (R161). -/
def shlResult (a : Byte) : Byte := BitVec.ofNat 8 (a.toNat * 2 % 256)

/-- Bit 7 of the old value (R161). -/
def shlFlag (a : Byte) : Bool := decide (a.toNat / 128 = 1)

/-- The flag is written to `V[15]` (R22). -/
def State.setFlag (s : State) (f : Bool) : State := s.setReg flagReg (flagByte f)

/-- The result is written first and the flag second, so the flag stays when `X = 15` (R117). -/
def State.setResultAndFlag (s : State) (x : Nibble) (b : Byte) (f : Bool) : State := (s.setReg x b).setFlag f

end Sys2Proof.Machine
end

