-- ==== Sys2Proof/Machine/Operands.lean ====
section
/-! DEFINITION. The operand forms (R83, R206): register, immediate byte, 12-bit address, address from `I`, key number,
register block, random byte. -/

namespace Sys2Proof.Machine

/-- `zext_16(NNN)` (R83). -/
def addrOperand (nnn : Addr) : Word := nnn.setWidth 16

/-- `zext_16(V[X])` (R132, R201, R202). -/
def wordOfByte (b : Byte) : Word := b.setWidth 16

/-- The base address of a memory instruction: `I` as a natural number, so that `I + i` never wraps (R57, R206). -/
def State.base (s : State) : Nat := s.i.toNat

/-- Whether the key named by a register's value is pressed; a value above 15 names no key and reads as not pressed
(R190, R191). -/
def State.pressed (s : State) (k : Byte) : Bool := k.toNat ≤ 15 && s.keyDown (k.setWidth 4)

/-- The values of `V[0]` to `V[X]`, `X` included (R83, R204). -/
def State.regBlock (s : State) (x : Nibble) : List Byte := s.v.toList.take (x.toNat + 1)

/-- `V[j] <- f j` for `j` from 0 to `X`; the registers above `X` are kept (R205). -/
def State.setRegBlock (s : State) (x : Nibble) (f : Nat → Byte) : State :=
  s.setRegs (s.v.mapIdx fun j b => if j ≤ x.toNat then f j else b)

/-- The decimal digits of a byte: hundreds, tens, ones (R203). -/
def bcdDigits (b : Byte) : List Byte :=
  [BitVec.ofNat 8 (b.toNat / 100), BitVec.ofNat 8 (b.toNat / 10 % 10), BitVec.ofNat 8 (b.toNat % 10)]

/-- The random byte of this execution of `RND`: a free value (R37, R163, log 1). -/
def State.rnd (s : State) : Byte := Config.rnd s.draws

/-- The random source has given its byte; the next draw is another one (R163: draws are independent). -/
def State.drawn (s : State) : State := s.setDraws (s.draws + 1)

end Sys2Proof.Machine
end

