-- ==== Sys2Proof/Machine/Alu.lean ====
section
/-! DEFINITION. Loads, arithmetic, logic, shifts and `RND` (42_alu.md). Every one ends with `PC + 2`; operands are read
before anything is written and the flag is written last (R117). -/

namespace Sys2Proof.Machine

/-- `LD Vx, byte` (R151). -/
def execLdImm (x : Nibble) (kk : Byte) (s : State) : Host.Outcome State Fault Refusal :=
  .next (s.setReg x kk).advance

/-- `LD Vx, Vy` (R152). -/
def execLdReg (x y : Nibble) (s : State) : Host.Outcome State Fault Refusal :=
  .next (s.setReg x (s.reg y)).advance

/-- `ADD Vx, byte` (R153): no flag. -/
def execAddImm (x : Nibble) (kk : Byte) (s : State) : Host.Outcome State Fault Refusal :=
  .next (s.setReg x (addResult (s.reg x) kk)).advance

/-- `OR Vx, Vy` (R154): no flag. -/
def execOr (x y : Nibble) (s : State) : Host.Outcome State Fault Refusal :=
  .next (s.setReg x (s.reg x ||| s.reg y)).advance

/-- `AND Vx, Vy` (R155): no flag. -/
def execAnd (x y : Nibble) (s : State) : Host.Outcome State Fault Refusal :=
  .next (s.setReg x (s.reg x &&& s.reg y)).advance

/-- `XOR Vx, Vy` (R156): no flag. -/
def execXor (x y : Nibble) (s : State) : Host.Outcome State Fault Refusal :=
  .next (s.setReg x (s.reg x ^^^ s.reg y)).advance

/-- `ADD Vx, Vy` (R157). -/
def execAddReg (x y : Nibble) (s : State) : Host.Outcome State Fault Refusal :=
  .next (s.setResultAndFlag x (addResult (s.reg x) (s.reg y)) (addFlag (s.reg x) (s.reg y))).advance

/-- `SUB Vx, Vy` (R158). -/
def execSub (x y : Nibble) (s : State) : Host.Outcome State Fault Refusal :=
  .next (s.setResultAndFlag x (subResult (s.reg x) (s.reg y)) (subFlag (s.reg x) (s.reg y))).advance

/-- `SUBN Vx, Vy` (R159): the operands of `SUB` the other way round. -/
def execSubn (x y : Nibble) (s : State) : Host.Outcome State Fault Refusal :=
  .next (s.setResultAndFlag x (subResult (s.reg y) (s.reg x)) (subFlag (s.reg y) (s.reg x))).advance

/-- `SHR Vx` (R160): in place; `V[Y]` is neither read nor written. -/
def execShr (x _y : Nibble) (s : State) : Host.Outcome State Fault Refusal :=
  .next (s.setResultAndFlag x (shrResult (s.reg x)) (shrFlag (s.reg x))).advance

/-- `SHL Vx` (R161): in place; `V[Y]` is neither read nor written. -/
def execShl (x _y : Nibble) (s : State) : Host.Outcome State Fault Refusal :=
  .next (s.setResultAndFlag x (shlResult (s.reg x)) (shlFlag (s.reg x))).advance

/-- `RND Vx, byte` (R163): the random byte is a free value (log 1). -/
def execRnd (x : Nibble) (kk : Byte) (s : State) : Host.Outcome State Fault Refusal :=
  .next (s.drawn.setReg x (s.rnd &&& kk)).advance

end Sys2Proof.Machine
end

