-- ==== Sys2Proof/Machine/Display.lean ====
section
/-! DEFINITION. The frame buffer operations and the display instructions (43_display.md). -/

namespace Sys2Proof.Machine

/-- `DISP[x][y]`; there is no pixel outside 64 by 32, and none reads as lit (R33). -/
def Display.lit (d : Display) (x y : Nat) : Bool :=
  if h : x < 64 ∧ y < 32 then (d[x]'h.1)[y]'h.2 else false

/-- The pixel at column `x` and row `y` of the machine's display. -/
def State.pixel (s : State) (x y : Nat) : Bool := Display.lit s.disp x y

/-- A display with all pixels 0 (R180). -/
def Display.clear : Display := Vector.replicate 64 (Vector.replicate 32 false)

/-- One pixel toggled; a pixel outside the screen is dropped (R181). -/
def Display.toggle (d : Display) (x y : Nat) : Display :=
  if h : x < 64 ∧ y < 32 then d.set x ((d[x]'h.1).set y (!(d[x]'h.1)[y]'h.2) h.2) h.1 else d

/-- A sprite bit that is 1 meets the target pixel: whether it was lit is a collision, and it is toggled; the flag
collects the collisions (R181). -/
def plot (c : Display × Bool) (x y : Nat) : Display × Bool :=
  (Display.toggle c.1 x y, c.2 || Display.lit c.1 x y)

/-- One row of a sprite: columns 0 to 7 from `x0` at row `y`, bit 7 of the byte leftmost; coordinates are true sums
(R181). -/
def drawRow (c : Display × Bool) (b : Byte) (x0 y : Nat) : Display × Bool :=
  (List.range 8).foldl (fun c col => if b.getLsbD (7 - col) then plot c (x0 + col) y else c) c

/-- The rows of a sprite, one byte each, from row `y` downward (R181). -/
def drawRows (c : Display × Bool) (x0 y : Nat) : List Byte → Display × Bool
  | [] => c
  | b :: bs => drawRows (drawRow c b x0 y) x0 (y + 1) bs

/-- The display after a sprite of `n` rows from `I` at `(V[X], V[Y])`, and whether a lit pixel was turned off (R181). -/
def State.drawSprite (s : State) (x y n : Nibble) : Display × Bool :=
  drawRows (s.disp, false) (s.reg x).toNat (s.reg y).toNat (Memory.readBytes s.mem s.base n.toNat)

/-- `CLS` (R180): `REDRAW` is not changed. -/
def execCls (s : State) : Host.Outcome State Fault Refusal := .next (s.setDisp Display.clear).advance

/-- `DRW Vx, Vy, n` (R181): the flag is always written, `REDRAW` always set. -/
def execDrw (x y n : Nibble) (s : State) : Host.Outcome State Fault Refusal :=
  .next ((((s.setDisp (s.drawSprite x y n).1).setFlag (s.drawSprite x y n).2).setRedraw true).advance)

end Sys2Proof.Machine
end

