-- ==== Sys2Proof/Machine/Flow.lean ====
section
/-! DEFINITION. `SYS` and unrecognized words (40_cycle.md) and the control transfer instructions (41_flow.md). -/

namespace Sys2Proof.Machine

/-- `SYS addr` and every other unrecognized word (R118): a no-operation that advances `PC` by 2; the bits of the word have
no effect and no state records it. -/
def execUnrecognized (s : State) : Host.Outcome State Fault Refusal := .next s.advance

/-- The meaning under the spelling `SYS addr` (R118): that of every unrecognized word, whatever `NNN` is. -/
abbrev execSys (_nnn : Addr) (s : State) : Host.Outcome State Fault Refusal := execUnrecognized s

/-- `RET` (R130): the slot below `SP` holds the address of the call; it is not cleared. -/
def execRet (s : State) : Host.Outcome State Fault Refusal :=
  .next ((s.setSp (spDown s.sp)).setPc (s.slot (spDown s.sp) + 2#16))

/-- `JP addr` (R131). -/
def execJp (nnn : Addr) (s : State) : Host.Outcome State Fault Refusal := .next (s.setPc (addrOperand nnn))

/-- `JP V0, addr` (R132): the sum always fits 16 bits and is not reduced to 12. -/
def execJpV0 (nnn : Addr) (s : State) : Host.Outcome State Fault Refusal :=
  .next (s.setPc (addrOperand nnn + wordOfByte (s.reg 0x0#4)))

/-- `CALL addr` (R133): the address of the call itself is pushed. -/
def execCall (nnn : Addr) (s : State) : Host.Outcome State Fault Refusal :=
  .next (((s.setSlot s.sp s.pc).setSp (spUp s.sp)).setPc (addrOperand nnn))

/-- `SE Vx, byte` (R134). -/
def execSeImm (x : Nibble) (kk : Byte) (s : State) : Host.Outcome State Fault Refusal :=
  .next (s.skipIf (s.reg x == kk))

/-- `SNE Vx, byte` (R135). -/
def execSneImm (x : Nibble) (kk : Byte) (s : State) : Host.Outcome State Fault Refusal :=
  .next (s.skipIf (s.reg x != kk))

/-- `SE Vx, Vy` (R136). -/
def execSeReg (x y : Nibble) (s : State) : Host.Outcome State Fault Refusal :=
  .next (s.skipIf (s.reg x == s.reg y))

/-- `SNE Vx, Vy` (R137). -/
def execSneReg (x y : Nibble) (s : State) : Host.Outcome State Fault Refusal :=
  .next (s.skipIf (s.reg x != s.reg y))

end Sys2Proof.Machine
end

