-- ==== Sys2Proof/Machine/IndexMemory.lean ====
section
/-! DEFINITION. Index register and memory instructions (45_index_memory.md). None changes `I` as a side effect of an
access (R206). -/

namespace Sys2Proof.Machine

/-- `LD I, addr` (R200). -/
def execLdI (nnn : Addr) (s : State) : Host.Outcome State Fault Refusal := .next (s.setI (addrOperand nnn)).advance

/-- `ADD I, Vx` (R201): a 16-bit sum, no flag. -/
def execAddI (x : Nibble) (s : State) : Host.Outcome State Fault Refusal :=
  .next (s.setI (s.i + wordOfByte (s.reg x))).advance

/-- `LD F, Vx` (R202): all 8 bits of `V[X]` are used. -/
def execLdF (x : Nibble) (s : State) : Host.Outcome State Fault Refusal :=
  .next (s.setI (wordOfByte (s.reg x) * 5#16)).advance

/-- `LD B, Vx` (R203). -/
def execLdB (x : Nibble) (s : State) : Host.Outcome State Fault Refusal :=
  .next (s.store s.base (bcdDigits (s.reg x))).advance

/-- `LD [I], Vx` (R204). -/
def execStoreRegs (x : Nibble) (s : State) : Host.Outcome State Fault Refusal :=
  .next (s.store s.base (s.regBlock x)).advance

/-- `LD Vx, [I]` (R205). -/
def execLoadRegs (x : Nibble) (s : State) : Host.Outcome State Fault Refusal :=
  .next (s.setRegBlock x fun j => s.memRead (s.base + j)).advance

end Sys2Proof.Machine
end

