-- ==== Sys2Proof/Machine/KeysTimers.lean ====
section
/-! DEFINITION. Key and timer instructions (44_keys_timers.md). The timer tick of the cycle has happened before any of
them executes (R112). -/

namespace Sys2Proof.Machine

/-- `SKP Vx` (R190). -/
def execSkp (x : Nibble) (s : State) : Host.Outcome State Fault Refusal :=
  .next (s.skipIf (s.pressed (s.reg x)))

/-- `SKNP Vx` (R191). -/
def execSknp (x : Nibble) (s : State) : Host.Outcome State Fault Refusal :=
  .next (s.skipIf (!s.pressed (s.reg x)))

/-- `LD Vx, DT` (R192). -/
def execLdVxDt (x : Nibble) (s : State) : Host.Outcome State Fault Refusal := .next (s.setReg x s.dt).advance

/-- `LD Vx, K` (R193): the core is blocked from the next cycle on; `V[X]` is written by the press that ends the wait
(R238). -/
def execLdVxK (x : Nibble) (s : State) : Host.Outcome State Fault Refusal := .next (s.setWait (some x)).advance

/-- `LD DT, Vx` (R194). -/
def execLdDtVx (x : Nibble) (s : State) : Host.Outcome State Fault Refusal := .next (s.setDt (s.reg x)).advance

/-- `LD ST, Vx` (R195): the write makes no pulse. -/
def execLdStVx (x : Nibble) (s : State) : Host.Outcome State Fault Refusal := .next (s.setSt (s.reg x)).advance

end Sys2Proof.Machine
end

