-- ==== Sys2Proof/Machine/HostOps.lean ====
section
/-! DEFINITION. The operations of the host (60_exceptions.md R236 to R240, 70_reset_and_hazards.md R260). The cycle, the
host's sixth operation (R241), is in Cycle.lean. -/

namespace Sys2Proof.Machine

/-- `reset()` (R236, R260): every piece of the core's state at its reset value, no pulse. What belongs to the random
source, to the history of the run and to the host is no state of the core and goes on (log 18). -/
def State.hostReset (s : State) : State :=
  (((State.reset.setDraws s.draws).setPulses s.pulses).setHostOps s.hostOps).noPulse

/-- `load(a, bytes)` (R237): nothing but memory changes; bytes above 4095 are dropped. -/
def State.hostLoad (s : State) (a : Nat) (bytes : List Byte) : State := (s.store a bytes).noPulse

/-- `press(k)` (R238): the flag is set, and a core blocked on a key takes the key number and runs again. -/
def State.hostPress (s : State) (k : Nibble) : State :=
  match s.wait with
  | none => (s.setKey k true).noPulse
  | some r => (((s.setKey k true).setReg r (k.setWidth 8)).setWait none).noPulse

/-- `release(k)` (R239). -/
def State.hostRelease (s : State) (k : Nibble) : State := (s.setKey k false).noPulse

/-- `ack_redraw()` (R240). -/
def State.hostAckRedraw (s : State) : State := (s.setRedraw false).noPulse

/-- "Run cycles for an elapsed duration" (R119): that many cycles in a row, with no other operation between them,
before whatever the host asks for next. -/
def State.hostRunFor (s : State) (seconds : Rat) : State :=
  s.setHostOps (List.replicate (Config.cyclesFor seconds) .cycle ++ s.hostOps)

/-- What the host sees of the core after a step: the pixels, `REDRAW` and the step's `sound_pulse`, and nothing else (R183,
R240, R241). -/
def State.hostView (s : State) : Display × Bool × Bool := (s.disp, s.redraw, s.soundPulse)

end Sys2Proof.Machine
end

