-- ==== Sys2Proof/Machine/Cycle.lean ====
section
/-! DEFINITION. The cycle, the core's one step (40_cycle.md R110 to R115), and one operation of the host. -/

namespace Sys2Proof.Machine

/-- Decode and execute a fetched word (R110, R115). -/
def execWord (w : Word) (s : State) : Host.Outcome State Fault Refusal := exec (decode w) s

/-- `cycle` (R110, R112): fetch, timers, blocked test, decode, execute, in this order. A blocked cycle only ticks
(R114). -/
def cycle (s : State) : Host.Outcome State Fault Refusal :=
  match s.wait with
  | some _ => .next s.tick
  | none => execWord s.fetchWord s.tick

/-- One operation of the host, as a step of the whole machine (R10, R228, R236 to R241). -/
def hostStep (op : HostOp) (s : State) : Host.Outcome State Fault Refusal :=
  match op with
  | .reset => .next s.hostReset
  | .load a bytes => .next (s.hostLoad a bytes)
  | .press k => .next (s.hostPress k)
  | .release k => .next (s.hostRelease k)
  | .ackRedraw => .next s.hostAckRedraw
  | .cycle => cycle s

/-- The next step of the machine: the oldest operation the host has asked for, or a cycle when none is left (R10, R61,
R228, log 2). -/
def nextStep (s : State) : Host.Outcome State Fault Refusal :=
  match s.hostOps with
  | [] => cycle s
  | op :: rest => hostStep op (s.setHostOps rest)

end Sys2Proof.Machine
end

