-- ==== Sys2Proof/Machine/Step.lean ====
section
/-! DEFINITION. The step function of the machine, and a state in which the next step runs a given instruction. -/

namespace Sys2Proof.Machine

/-- One step: all steps are serialised, cycles and host operations alike (R10, R61). No state ends a run: the core has no
halt (R120), and the end of a run is the model's choice (decision D28, log 19), a given number of steps. -/
def step (s : State) : Host.Outcome State Fault Refusal := nextStep s

/-- The state with an instruction, given by its bits, placed where the next step fetches (log 15). -/
def State.withFetchWord (s : State) (nbits w : Nat) : State := s.placeNext (tableBytes nbits w)

end Sys2Proof.Machine
end

