-- ==== Sys2Proof/Machine/Core.lean ====
section
/-! DEFINITION. The machine behind the host's interface. -/

/-- The machine. DESIGN CHOICE (log 19): R120 and decision D28 leave it to a model to define the end of a run; here a run
ends after a given number `n` of steps (`Host.Core.run`), a host operation counting as one step and a cycle as one. -/
def Sys2Proof.core : Host.Core := { State := Sys2Proof.Machine.State, Fault := Sys2Proof.Machine.Fault, Refusal := Sys2Proof.Machine.Refusal, step := Sys2Proof.Machine.step, reset := Sys2Proof.Machine.State.reset }
end

