-- ==== Sys2Proof/Safety.lean ====
section
/-! DEFINITION. What counts as a safe run, in the terms claims use: the invariant of the reachable states (R39), a step
that completes (R220), and the three error conditions of R221 as predicates on a cycle, which change nothing in the
machine. -/

namespace Sys2Proof.Machine

/-- R39: `SP` is at most 15, and memory has no cell outside 0 to 4095 (with the rest of the canonical form). The other
ranges of R39 are in the types. -/
def State.Inv (s : State) : Prop := s.sp.toNat ≤ 15 ∧ Memory.wf s.mem

/-- The outcome is a next state: nothing trapped and nothing was refused (R220). -/
def completes (o : Host.Outcome State Fault Refusal) : Prop := ∃ t, o = .next t

/-- R221 (a): the cycle of this state executes a word that is no recognized shape. -/
def State.decodeUnrecognized (s : State) : Prop :=
  s.wait = none ∧ decode s.fetchWord = .unrecognized

/-- R221 (b): `CALL` with 16 live frames or `RET` with none. The depth is ghost state of the claim, because `SP` cannot
tell a full stack from an empty one; how it counts past 16 is the model's choice (log 20, `framesAfter`), and a `CALL` there
meets the condition too. -/
def State.stackExhausted (s : State) (depth : Nat) : Prop :=
  s.wait = none ∧ ((decode s.fetchWord = .ret ∧ depth = 0) ∨ ∃ nnn, decode s.fetchWord = .call nnn ∧ 16 ≤ depth)

/-- The ghost call depth after an instruction. DESIGN CHOICE (log 20): R221 leaves the tracking to the model. The depth
counts the `CALL`s not yet matched by a `RET`; it goes on past 16, where only 16 slots exist and the oldest return address
is lost (R133), and a `RET` at depth 0 leaves it at 0. -/
def framesAfter (i : Instr) (depth : Nat) : Nat :=
  match i with
  | .call _ => depth + 1
  | .ret => depth - 1
  | .cls | .unrecognized | .jp _ | .seImm _ _ | .sneImm _ _ | .seReg _ _ | .ldImm _ _ | .addImm _ _ => depth
  | .ldReg _ _ => depth
  | .orReg _ _ | .andReg _ _ | .xorReg _ _ | .addReg _ _ | .sub _ _ | .shr _ _ | .subn _ _ | .shl _ _ => depth
  | .sneReg _ _ | .ldI _ | .jpV0 _ | .rnd _ _ | .drw _ _ _ | .skp _ | .sknp _ | .ldVxDt _ | .ldVxK _ => depth
  | .ldDtVx _ | .ldStVx _ | .addI _ | .ldF _ | .ldB _ | .storeRegs _ | .loadRegs _ => depth

/-- The data addresses an instruction reads or writes (R59). -/
def dataAddresses (i : Instr) (s : State) : List Nat :=
  match i with
  | .drw _ _ n => (List.range n.toNat).map (s.base + ·)
  | .ldB _ => (List.range 3).map (s.base + ·)
  | .storeRegs x | .loadRegs x => (List.range (x.toNat + 1)).map (s.base + ·)
  | .cls | .ret | .unrecognized | .jp _ | .call _ | .seImm _ _ | .sneImm _ _ | .seReg _ _ | .ldImm _ _ => []
  | .addImm _ _ => []
  | .ldReg _ _ | .orReg _ _ | .andReg _ _ | .xorReg _ _ | .addReg _ _ | .sub _ _ | .shr _ _ | .subn _ _ => []
  | .shl _ _ | .sneReg _ _ | .ldI _ | .jpV0 _ | .rnd _ _ | .skp _ | .sknp _ | .ldVxDt _ | .ldVxK _ | .ldDtVx _ => []
  | .ldStVx _ | .addI _ | .ldF _ => []

/-- R221 (c) and R222: an effective address of this cycle, of the fetch or of the instruction, is above 4095. -/
def State.outOfRange (s : State) : Prop :=
  4096 ≤ s.pc.toNat + 1 ∨
    (s.wait = none ∧ ∃ a ∈ dataAddresses (decode s.fetchWord) s, 4096 ≤ a)

/-- A cycle that meets none of the three conditions, with ghost call depth `depth` before it (log 20). -/
def State.safeCycle (s : State) (depth : Nat) : Prop :=
  ¬ s.decodeUnrecognized ∧ ¬ s.stackExhausted depth ∧ ¬ s.outOfRange

/-! ### Frames -/

/-- The parts of the state, but for the program counter, of which every statement says where it goes. -/
inductive Part where
  | registers | index | callStack | memory | display | delayTimer | soundTimer | keys | keyWait | redrawFlag
  | pulse | pulseCount | randomDraws | pendingHostOps
deriving DecidableEq, Repr

/-- A part of the state reads as before. -/
def Part.same (p : Part) (s t : State) : Prop :=
  match p with
  | .registers => ∀ r, t.reg r = s.reg r
  | .index => t.i = s.i
  | .callStack => t.sp = s.sp ∧ ∀ j, t.slot j = s.slot j
  | .memory => ∀ a, t.memRead a = s.memRead a
  | .display => ∀ x y, t.pixel x y = s.pixel x y
  | .delayTimer => t.dt = s.dt
  | .soundTimer => t.st = s.st
  | .keys => ∀ k, t.keyDown k = s.keyDown k
  | .keyWait => t.wait = s.wait
  | .redrawFlag => t.redraw = s.redraw
  | .pulse => t.soundPulse = s.soundPulse
  | .pulseCount => t.pulses = s.pulses
  | .randomDraws => t.draws = s.draws
  | .pendingHostOps => t.hostOps = s.hostOps

/-- Every part of the state but the named ones reads as before; the program counter may change. -/
def sameBut (changed : List Part) (s t : State) : Prop := ∀ p, p ∉ changed → p.same s t

/-- Every register but the named ones holds what it held. -/
def sameRegsBut (changed : List Nibble) (s t : State) : Prop := ∀ r, r ∉ changed → t.reg r = s.reg r

/-- `PC` after is `PC` before plus `n`, modulo 65536 (R116). -/
def pcPlus (n : Nat) (s t : State) : Prop := t.pc.toNat = (s.pc.toNat + n) % 65536

/-- The skip rule: plus 4 if the condition holds, else plus 2 (R138). -/
def pcSkip (c : Prop) (s t : State) : Prop := (c → pcPlus 4 s t) ∧ (¬ c → pcPlus 2 s t)

/-- The bit of the sprite `DRW Vx, Vy, n` draws from `I` that falls on column `p` and row `q`: the row's byte is at
`I + (q - V[Y])` and bit 7 is the leftmost of its 8 columns; false where the sprite does not reach (R181). -/
def State.spriteBit (s : State) (x y n : Nibble) (p q : Nat) : Bool :=
  decide ((s.reg x).toNat ≤ p ∧ p < (s.reg x).toNat + 8 ∧ (s.reg y).toNat ≤ q ∧ q < (s.reg y).toNat + n.toNat) &&
    (s.memRead (s.base + (q - (s.reg y).toNat))).getLsbD (7 - (p - (s.reg x).toNat))

/-- Instructions executed one after another, with no cycle around them. -/
def execSeq : List Instr → State → Host.Outcome State Fault Refusal
  | [], s => .next s
  | i :: is, s =>
    match exec i s with
    | .next t => execSeq is t
    | .fault f => .fault f
    | .refused r => .refused r

/-- The core is running and the word at `PC` decodes to the instruction, so the next cycle executes it (R110). -/
abbrev State.executes (s : State) (i : Instr) : Prop := s.wait = none ∧ decode s.fetchWord = i

/-- Every piece of the core's state at its reset value, and no pulse (R40, R260). -/
def State.atReset (t : State) : Prop :=
  (∀ r, t.reg r = 0x00#8) ∧ t.i = 0x0000#16 ∧ t.pc = 0x0200#16 ∧ t.sp = 0x00#8 ∧ (∀ j, t.slot j = 0x0000#16) ∧
    (∀ a, t.memRead a = if a < 80 then fontTable.getD a 0x00#8 else 0x00#8) ∧ (∀ x y, t.pixel x y = false) ∧
    t.dt = 0x00#8 ∧ t.st = 0x00#8 ∧ (∀ k, t.keyDown k = false) ∧ t.wait = none ∧ t.redraw = false ∧
    t.soundPulse = false

/-- The instructions that write the flag (R22, R162). -/
def writesFlag : Instr → Bool
  | .addReg _ _ | .sub _ _ | .subn _ _ | .shr _ _ | .shl _ _ | .drw _ _ _ => true
  | .cls | .ret | .unrecognized | .jp _ | .call _ | .seImm _ _ | .sneImm _ _ | .seReg _ _ | .ldImm _ _ => false
  | .addImm _ _ => false
  | .ldReg _ _ | .orReg _ _ | .andReg _ _ | .xorReg _ _ | .sneReg _ _ | .ldI _ | .jpV0 _ | .rnd _ _ | .skp _ => false
  | .sknp _ | .ldVxDt _ | .ldVxK _ | .ldDtVx _ | .ldStVx _ | .addI _ | .ldF _ | .ldB _ | .storeRegs _ => false
  | .loadRegs _ => false

/-- The registers an instruction names as destinations of its result: `V[X]`, or `V[0]` to `V[X]` for the block load
(R21, R205). The flag is no such destination. -/
def destinations : Instr → List Nibble
  | .ldImm x _ | .addImm x _ | .ldReg x _ | .orReg x _ | .andReg x _ | .xorReg x _ | .addReg x _ | .sub x _ => [x]
  | .subn x _ | .shr x _ | .shl x _ | .rnd x _ | .ldVxDt x => [x]
  | .loadRegs x => (List.range (x.toNat + 1)).map (BitVec.ofNat 4)
  | .cls | .ret | .unrecognized | .jp _ | .call _ | .seImm _ _ | .sneImm _ _ | .seReg _ _ | .sneReg _ _ | .ldI _ => []
  | .jpV0 _ | .drw _ _ _ | .skp _ | .sknp _ | .ldVxK _ | .ldDtVx _ | .ldStVx _ | .addI _ | .ldF _ | .ldB _ => []
  | .storeRegs _ => []

/-- Jumps, calls, returns and skips: the instructions whose new `PC` is not always `PC + 2` (R23). -/
def transfersControl : Instr → Bool
  | .ret | .jp _ | .call _ | .jpV0 _ | .seImm _ _ | .sneImm _ _ | .seReg _ _ | .sneReg _ _ | .skp _ | .sknp _ => true
  | .cls | .unrecognized | .ldImm _ _ | .addImm _ _ | .ldReg _ _ | .orReg _ _ | .andReg _ _ | .xorReg _ _ => false
  | .addReg _ _ | .sub _ _ | .shr _ _ | .subn _ _ | .shl _ _ | .ldI _ | .rnd _ _ | .drw _ _ _ | .ldVxDt _ => false
  | .ldVxK _ | .ldDtVx _ | .ldStVx _ | .addI _ | .ldF _ | .ldB _ | .storeRegs _ | .loadRegs _ => false

/-- The parts of the state an instruction writes besides `PC`, as 10_state.md names the writers of each (R21, R24, R25,
R26, R27, R28, R29, R32, R33, R34, R35). -/
def writtenParts : Instr → List Part
  | .unrecognized | .jp _ | .jpV0 _ | .seImm _ _ | .sneImm _ _ | .seReg _ _ | .sneReg _ _ | .skp _ | .sknp _ => []
  | .ret | .call _ => [.callStack]
  | .ldImm _ _ | .addImm _ _ | .ldReg _ _ | .orReg _ _ | .andReg _ _ | .xorReg _ _ | .addReg _ _ => [.registers]
  | .sub _ _ | .shr _ _ | .subn _ _ | .shl _ _ | .ldVxDt _ | .loadRegs _ => [.registers]
  | .rnd _ _ => [.registers, .randomDraws]
  | .cls => [.display]
  | .drw _ _ _ => [.display, .registers, .redrawFlag]
  | .ldVxK _ => [.keyWait]
  | .ldDtVx _ => [.delayTimer]
  | .ldStVx _ => [.soundTimer]
  | .ldI _ | .addI _ | .ldF _ => [.index]
  | .ldB _ | .storeRegs _ => [.memory]

/-- The operand fields of an instruction are the fields of the word: `X` bits 11 to 8, `Y` bits 7 to 4, `N` bits 3 to 0,
`KK` bits 7 to 0, `NNN` bits 11 to 0 (R81). -/
def fieldsOf (w : Word) : Instr → Prop
  | .cls | .ret | .unrecognized => True
  | .jp nnn | .call nnn | .ldI nnn | .jpV0 nnn => nnn.toNat = w.toNat % 4096
  | .seImm x kk | .sneImm x kk | .ldImm x kk | .addImm x kk | .rnd x kk =>
    x.toNat = w.toNat / 256 % 16 ∧ kk.toNat = w.toNat % 256
  | .seReg x y | .sneReg x y | .ldReg x y | .orReg x y | .andReg x y | .xorReg x y | .addReg x y | .sub x y =>
    x.toNat = w.toNat / 256 % 16 ∧ y.toNat = w.toNat / 16 % 16
  | .shr x y | .subn x y | .shl x y => x.toNat = w.toNat / 256 % 16 ∧ y.toNat = w.toNat / 16 % 16
  | .drw x y n => x.toNat = w.toNat / 256 % 16 ∧ y.toNat = w.toNat / 16 % 16 ∧ n.toNat = w.toNat % 16
  | .skp x | .sknp x | .ldVxDt x | .ldVxK x | .ldDtVx x | .ldStVx x | .addI x | .ldF x | .ldB x | .storeRegs x
  | .loadRegs x => x.toNat = w.toNat / 256 % 16

/-- The words that are no recognized shape (R93), by arithmetic on the word. -/
def unrecognizedWord (w : Word) : Prop :=
  (w.toNat / 4096 = 0x0 ∧ w.toNat ≠ 0x00E0 ∧ w.toNat ≠ 0x00EE) ∨
  (w.toNat / 4096 = 0x8 ∧ w.toNat % 16 ∈ [0x8, 0x9, 0xA, 0xB, 0xC, 0xD, 0xF]) ∨
  (w.toNat / 4096 = 0xE ∧ w.toNat % 256 ∉ [0x9E, 0xA1]) ∨
  (w.toNat / 4096 = 0xF ∧ w.toNat % 256 ∉ [0x07, 0x0A, 0x15, 0x18, 0x1E, 0x29, 0x33, 0x55, 0x65])

end Sys2Proof.Machine
end

