-- ==== Sys2Proof/Certificates/Slice0/Obligations.lean ====
section
/-! DEFINITION. The statements for the provers, from the numbered rules of spec/. A frame says which parts of the state
(`sameBut`) and which registers (`sameRegsBut`) read as before; both are in Safety.lean. -/

open Sys2Proof Sys2Proof.Machine

/-! ### Reset, the step, the cycle -/

/-- R260 and R40: what `reset()` leaves, from any state, and the power-on state. The key flags and `REDRAW` rest on
the spec's decision D18, which both rules state. -/
def Obligations.ResetLeavesTheSpecsValues : Prop :=
  State.reset.atReset ∧ ∀ s, ∃ t, hostStep .reset s = .next t ∧ t.atReset

/-- R39: the invariant holds at reset. That memory is in its canonical form is the model's own part of it (log 5). -/
def Obligations.InvariantHoldsAtReset : Prop := State.reset.Inv

/-- R39: every step, a cycle or a host operation, keeps the invariant, from every state that has it. -/
def Obligations.StepKeepsInvariant : Prop := ∀ s t : State, s.Inv → step s = .next t → t.Inv

/-- R220: no instruction and no step traps, faults or stops: a next state from every state. -/
def Obligations.StepAlwaysCompletes : Prop := (∀ i s, completes (exec i s)) ∧ ∀ s, completes (step s)

/-- R110, R115: with no host operation pending (log 2), a step of a running core executes the instruction that the word
at `PC` decodes to, on the state after the timer tick (`Unrecognized` is one of the decoder's results); a blocked core
only ticks. -/
def Obligations.StepRunsDecodedInstruction : Prop :=
  ∀ s : State, s.hostOps = [] →
    (∀ r, s.wait = some r → step s = .next s.tick) ∧
    (∀ i, s.wait = none → decode s.fetchWord = i → step s = exec i s.tick)

/-- R10, R228, R241: an operation the host has asked for is the next step, before any cycle (log 2). -/
def Obligations.StepRunsPendingHostOperation : Prop :=
  ∀ (s : State) op rest, s.hostOps = op :: rest →
    step s = hostStep op (s.setHostOps rest) ∧ hostStep .cycle s = cycle s

/-- R113: both timers count down once in every cycle, blocked or not, and stop at zero; the pulse is there in exactly
the cycles that find `ST = 1`. A timer that the cycle's own instruction writes is R112's, stated elsewhere. -/
def Obligations.CycleTicksBothTimers : Prop :=
  ∀ s t : State, cycle s = .next t →
    (t.soundPulse = true ↔ s.st.toNat = 1) ∧
    ((∀ x, ¬ s.executes (.ldDtVx x)) → t.dt.toNat = if s.dt.toNat = 0 then 0 else s.dt.toNat - 1) ∧
    ((∀ x, ¬ s.executes (.ldStVx x)) → t.st.toNat = if s.st.toNat = 0 then 0 else s.st.toNat - 1)

/-- R36: the count of pulses is the history of the output: every step, whatever it is, adds the one value it puts out
(log 3); an operation of the host that is no cycle puts out no pulse. -/
def Obligations.EveryPulseIsCounted : Prop :=
  (∀ s t : State, step s = .next t → t.pulses = s.pulses + if t.soundPulse = true then 1 else 0) ∧
  (∀ (s t : State) op, op ≠ .cycle → hostStep op s = .next t → t.soundPulse = false ∧ t.pulses = s.pulses)

/-- R112: the tick comes before the instruction (a timer read gives the ticked value, a written timer holds the written
value at the end of the cycle), the cycle that executes `LD Vx, K` is not itself blocked, and a blocked cycle ticks as a
running one does. -/
def Obligations.TimersTickBeforeExecution : Prop :=
  ∀ (s : State) (x : Nibble),
    (s.executes (.ldVxDt x) → ∃ t, cycle s = .next t ∧ (t.reg x).toNat = s.dt.toNat - 1 ∧ t.dt.toNat = s.dt.toNat - 1) ∧
    (s.executes (.ldDtVx x) → ∃ t, cycle s = .next t ∧ t.dt = s.reg x) ∧
    (s.executes (.ldStVx x) → ∃ t, cycle s = .next t ∧ t.st = s.reg x ∧ (t.soundPulse = true ↔ s.st.toNat = 1)) ∧
    (s.executes (.ldVxK x) → ∃ t, cycle s = .next t ∧ t.wait = some x ∧ pcPlus 2 s t) ∧
    (s.wait ≠ none → ∃ t, cycle s = .next t ∧ t.pc = s.pc ∧ t.dt.toNat = s.dt.toNat - 1 ∧ t.st.toNat = s.st.toNat - 1 ∧
      (t.soundPulse = true ↔ s.st.toNat = 1))

/-- R231 and R114: the two execution modes and every transition between them. The core starts running; only `LD Vx, K`
blocks it; a blocked cycle only ticks the timers; only a press or a reset ends the wait. -/
def Obligations.ExecutionModeTransitions : Prop :=
  State.reset.wait = none ∧
  (∀ (s : State) x, s.executes (.ldVxK x) → ∃ t, cycle s = .next t ∧ t.wait = some x ∧ pcPlus 2 s t) ∧
  (∀ s t : State, s.wait = none → (∀ x, ¬ s.executes (.ldVxK x)) → cycle s = .next t → t.wait = none) ∧
  (∀ (s : State) r, s.wait = some r →
    (∃ t, cycle s = .next t ∧ t.pc = s.pc ∧ sameBut [.delayTimer, .soundTimer, .pulse, .pulseCount] s t) ∧
    (∀ k, ∃ t, hostStep (.press k) s = .next t ∧ t.keyDown k = true ∧ (t.reg r).toNat = k.toNat ∧ t.wait = none) ∧
    (∀ k, ∃ t, hostStep (.release k) s = .next t ∧ t.keyDown k = false ∧ t.wait = some r)) ∧
  (∀ s : State, ∃ t, hostStep .reset s = .next t ∧ t.wait = none) ∧
  (∀ (s : State) a bs, ∃ t, hostStep (.load a bs) s = .next t ∧ t.wait = s.wait) ∧
  (∀ s : State, ∃ t, hostStep .ackRedraw s = .next t ∧ t.wait = s.wait)

/-- R113, R114: a blocked core whose host asks for nothing but cycles stays blocked for ever; after `n` steps each timer
is down by `n`, stopping at zero; there was one pulse in them if `ST` was 1 to `n` at the start, and else none; the latest
cycle made it exactly when `ST` was `n`. -/
def Obligations.BlockedRunCountsDown : Prop :=
  ∀ (n : Nat) (s : State) r, s.wait = some r → s.hostOps = [] →
    ∃ t : State, Sys2Proof.core.run n s = .next t ∧ t.wait = some r ∧ t.pc = s.pc ∧
      t.dt.toNat = s.dt.toNat - n ∧ t.st.toNat = s.st.toNat - n ∧
      (0 < n → (t.soundPulse = true ↔ s.st.toNat = n)) ∧
      t.pulses = s.pulses + (if 1 ≤ s.st.toNat ∧ s.st.toNat ≤ n then 1 else 0) ∧
      sameBut [.delayTimer, .soundTimer, .pulse, .pulseCount] s t

/-! ### Host operations -/

/-- R238: a press sets the flag; a core blocked on a key takes the number of whatever key it is and runs again; a press
while running only sets the flag. What it puts out is `EveryPulseIsCounted`'s. -/
def Obligations.PressSetsFlagAndEndsWait : Prop :=
  ∀ (s : State) k, ∃ t, hostStep (.press k) s = .next t ∧ t.pc = s.pc ∧ t.wait = none ∧
    (∀ q, t.keyDown q = if q = k then true else s.keyDown q) ∧
    (∀ r, s.wait = some r → (t.reg r).toNat = k.toNat ∧ sameRegsBut [r] s t ∧
      sameBut [.keys, .registers, .keyWait, .pulse] s t) ∧
    (s.wait = none → sameBut [.keys, .pulse] s t)

/-- R239 and R240: a release clears its flag, `ack_redraw` clears `REDRAW`, and nothing else changes; what they put
out is `EveryPulseIsCounted`'s. -/
def Obligations.ReleaseAndAckClearOneFlag : Prop :=
  (∀ (s : State) k, ∃ t, hostStep (.release k) s = .next t ∧ t.pc = s.pc ∧
    (∀ q, t.keyDown q = if q = k then false else s.keyDown q) ∧ sameBut [.keys, .pulse] s t) ∧
  (∀ s : State, ∃ t, hostStep .ackRedraw s = .next t ∧ t.pc = s.pc ∧ t.redraw = false ∧
    sameBut [.redrawFlag, .pulse] s t)

/-- R237: a load puts its bytes at ascending addresses, drops those above 4095 and changes nothing else, `PC` included;
what it puts out is `EveryPulseIsCounted`'s. -/
def Obligations.LoadWritesItsBytes : Prop :=
  ∀ (s : State) a bs, ∃ t, hostStep (.load a bs) s = .next t ∧ t.pc = s.pc ∧
    (∀ j, j < bs.length → a + j ≤ 4095 → t.memRead (a + j) = bs.getD j 0x00#8) ∧
    (∀ b, ¬ (a ≤ b ∧ b < a + bs.length) → t.memRead b = s.memRead b) ∧ sameBut [.memory, .pulse] s t

/-! ### Memory -/

/-- R54 and R55: a read above 4095 gives 0x00, a write above 4095 changes nothing, a write at or below it changes its
one cell, and a two-byte read takes the high byte first, each byte checked on its own. -/
def Obligations.AccessesAreBoundsChecked : Prop :=
  (∀ (s : State) a, 4095 < a → s.memRead a = 0x00#8) ∧
  (∀ (s : State) a v b, (s.store a [v]).memRead b = if b = a ∧ a ≤ 4095 then v else s.memRead b) ∧
  (∀ (s : State) a b bs, (s.store a (b :: bs)).mem = ((s.store a [b]).store (a + 1) bs).mem) ∧
  (∀ s : State, s.fetchWord.toNat = (s.memRead s.pc.toNat).toNat * 256 + (s.memRead (s.pc.toNat + 1)).toNat)

/-- R64: the bytes a block store puts at the next `PC` are the word the next cycle fetches. -/
def Obligations.StoreIsFetchedNext : Prop :=
  ∀ (s : State) (x k : Nibble), k.toNat + 1 ≤ x.toNat → s.i.toNat + k.toNat + 1 ≤ 4095 →
    s.i.toNat + k.toNat = (s.pc.toNat + 2) % 65536 →
    ∃ t, exec (.storeRegs x) s = .next t ∧
      t.fetchWord.toNat = (s.reg k).toNat * 256 + (s.reg (k + 1#4)).toNat

/-- R262, R237: after a reset and a load of an image at 0x200, the core is running and fetches the image's first word,
high byte first, at the entry point. -/
def Obligations.BootFetchesTheImage : Prop :=
  ∀ (s : State) hi lo rest, ∃ t u, hostStep .reset s = .next t ∧ hostStep (.load 0x200 (hi :: lo :: rest)) t = .next u ∧
    u.pc.toNat = 0x200 ∧ u.wait = none ∧ u.fetchWord.toNat = hi.toNat * 256 + lo.toNat

/-! ### SYS, unrecognized words, control transfer -/

/-- R118: `SYS`, whatever its `NNN`, and every other unrecognized word advance `PC` by 2 and do nothing else. -/
def Obligations.SysAndUnrecognizedAreNoOps : Prop :=
  (∀ s, ∃ t, exec .unrecognized s = .next t ∧ pcPlus 2 s t ∧ sameBut [] s t) ∧
  (∀ nnn, nnn ≠ 0x0E0#12 → nnn ≠ 0x0EE#12 → decode (encodeA 0x0#4 nnn) = .unrecognized) ∧
  (∀ w s, decode w = .unrecognized → ∃ t, execWord w s = .next t ∧ pcPlus 2 s t ∧ sameBut [] s t)

/-- R130: `RET` takes the slot below `SP`, modulo 16, goes 2 past the address it holds, and does not clear it. -/
def Obligations.RetReturnsPastTheCall : Prop :=
  ∀ s, ∃ t, exec .ret s = .next t ∧ (t.sp.toNat : Int) = ((s.sp.toNat : Int) - 1) % 16 ∧
    t.pc.toNat = ((s.slot t.sp).toNat + 2) % 65536 ∧ (∀ j, t.slot j = s.slot j) ∧ sameBut [.callStack] s t

/-- R133: `CALL` stores its own address in the free slot, moves `SP` up modulo 16 and goes to `NNN`. `SP` is at most 15
in every reachable state (`StepKeepsInvariant`). -/
def Obligations.CallPushesItsOwnAddress : Prop :=
  ∀ nnn (s : State), s.sp.toNat ≤ 15 →
    ∃ t, exec (.call nnn) s = .next t ∧ t.slot s.sp = s.pc ∧ t.sp.toNat = (s.sp.toNat + 1) % 16 ∧
      t.pc.toNat = nnn.toNat ∧ (∀ j, j.toNat ≤ 15 → j ≠ s.sp → t.slot j = s.slot j) ∧ sameBut [.callStack] s t

/-- R26: up to 16 nested calls unwind exactly: after them and as many returns `SP` is back and `PC` is 2 past the first
call. -/
def Obligations.SixteenCallsUnwind : Prop :=
  ∀ (targets : List Addr) (s : State), s.sp.toNat ≤ 15 → 0 < targets.length → targets.length ≤ 16 →
    ∃ t, execSeq (targets.map Instr.call ++ List.replicate targets.length Instr.ret) s = .next t ∧
      t.sp = s.sp ∧ pcPlus 2 s t

/-- R131 and R132: the new `PC` is `NNN`, or `NNN + V[0]`, not reduced to 12 bits. -/
def Obligations.JumpsSetPc : Prop :=
  (∀ nnn s, ∃ t, exec (.jp nnn) s = .next t ∧ t.pc.toNat = nnn.toNat ∧ sameBut [] s t) ∧
  (∀ nnn s, ∃ t, exec (.jpV0 nnn) s = .next t ∧ t.pc.toNat = nnn.toNat + (s.reg 0x0#4).toNat ∧ sameBut [] s t)

/-- R134 to R137: plus 4 if the condition holds, else plus 2. -/
def Obligations.SkipsCompareRegisters : Prop :=
  (∀ x kk s, ∃ t, exec (.seImm x kk) s = .next t ∧ pcSkip (s.reg x = kk) s t ∧ sameBut [] s t) ∧
  (∀ x kk s, ∃ t, exec (.sneImm x kk) s = .next t ∧ pcSkip (s.reg x ≠ kk) s t ∧ sameBut [] s t) ∧
  (∀ x y s, ∃ t, exec (.seReg x y) s = .next t ∧ pcSkip (s.reg x = s.reg y) s t ∧ sameBut [] s t) ∧
  (∀ x y s, ∃ t, exec (.sneReg x y) s = .next t ∧ pcSkip (s.reg x ≠ s.reg y) s t ∧ sameBut [] s t)

/-! ### Loads, arithmetic, logic, shifts, RND -/

/-- R151 and R152. -/
def Obligations.LoadsCopyTheirOperand : Prop :=
  (∀ x kk s, ∃ t, exec (.ldImm x kk) s = .next t ∧ t.reg x = kk ∧ pcPlus 2 s t ∧ sameRegsBut [x] s t ∧
    sameBut [.registers] s t) ∧
  (∀ x y s, ∃ t, exec (.ldReg x y) s = .next t ∧ t.reg x = s.reg y ∧ pcPlus 2 s t ∧ sameRegsBut [x] s t ∧
    sameBut [.registers] s t)

/-- R153: an 8-bit wrapping add that writes no flag. -/
def Obligations.AddImmediateWrapsWithoutFlag : Prop :=
  ∀ x kk s, ∃ t, exec (.addImm x kk) s = .next t ∧ (t.reg x).toNat = ((s.reg x).toNat + kk.toNat) % 256 ∧
    pcPlus 2 s t ∧ sameRegsBut [x] s t ∧ sameBut [.registers] s t

/-- R154 to R156: bit by bit, no flag. -/
def Obligations.LogicIsBitwiseWithoutFlag : Prop :=
  (∀ x y s, ∃ t, exec (.orReg x y) s = .next t ∧
    (∀ j, (t.reg x).getLsbD j = ((s.reg x).getLsbD j || (s.reg y).getLsbD j)) ∧
    pcPlus 2 s t ∧ sameRegsBut [x] s t ∧ sameBut [.registers] s t) ∧
  (∀ x y s, ∃ t, exec (.andReg x y) s = .next t ∧
    (∀ j, (t.reg x).getLsbD j = ((s.reg x).getLsbD j && (s.reg y).getLsbD j)) ∧
    pcPlus 2 s t ∧ sameRegsBut [x] s t ∧ sameBut [.registers] s t) ∧
  (∀ x y s, ∃ t, exec (.xorReg x y) s = .next t ∧
    (∀ j, (t.reg x).getLsbD j = ((s.reg x).getLsbD j ^^ (s.reg y).getLsbD j)) ∧
    pcPlus 2 s t ∧ sameRegsBut [x] s t ∧ sameBut [.registers] s t)

/-- R157 (and R117 for `X = 15`, decision D6): the low 8 bits of the sum, and the carry in `V[15]`, written last. -/
def Obligations.AddRegistersSetsCarry : Prop :=
  ∀ x y s, ∃ t, exec (.addReg x y) s = .next t ∧
    (x ≠ 15#4 → (t.reg x).toNat = ((s.reg x).toNat + (s.reg y).toNat) % 256) ∧
    (t.reg 15#4).toNat = (if (s.reg x).toNat + (s.reg y).toNat > 255 then 1 else 0) ∧
    pcPlus 2 s t ∧ sameRegsBut [x, 15#4] s t ∧ sameBut [.registers] s t

/-- R158 and R159: the wrapped difference (for `SUBN` by decision D3), and 1 in `V[15]` when the minuend is strictly
greater, written last. -/
def Obligations.SubtractionsSetStrictFlag : Prop :=
  (∀ x y s, ∃ t, exec (.sub x y) s = .next t ∧
    (x ≠ 15#4 → ((t.reg x).toNat : Int) = (((s.reg x).toNat : Int) - (s.reg y).toNat) % 256) ∧
    (t.reg 15#4).toNat = (if (s.reg x).toNat > (s.reg y).toNat then 1 else 0) ∧
    pcPlus 2 s t ∧ sameRegsBut [x, 15#4] s t ∧ sameBut [.registers] s t) ∧
  (∀ x y s, ∃ t, exec (.subn x y) s = .next t ∧
    (x ≠ 15#4 → ((t.reg x).toNat : Int) = (((s.reg y).toNat : Int) - (s.reg x).toNat) % 256) ∧
    (t.reg 15#4).toNat = (if (s.reg y).toNat > (s.reg x).toNat then 1 else 0) ∧
    pcPlus 2 s t ∧ sameRegsBut [x, 15#4] s t ∧ sameBut [.registers] s t)

/-- R160 and R161: shifts by one in place, `V[Y]` unused (decision D7), the bit shifted out in `V[15]`, written last. -/
def Obligations.ShiftsMoveOneBitIntoFlag : Prop :=
  (∀ x y s, ∃ t, exec (.shr x y) s = .next t ∧
    (x ≠ 15#4 → (t.reg x).toNat = (s.reg x).toNat / 2) ∧ (t.reg 15#4).toNat = (s.reg x).toNat % 2 ∧
    pcPlus 2 s t ∧ sameRegsBut [x, 15#4] s t ∧ sameBut [.registers] s t) ∧
  (∀ x y s, ∃ t, exec (.shl x y) s = .next t ∧
    (x ≠ 15#4 → (t.reg x).toNat = (s.reg x).toNat * 2 % 256) ∧ (t.reg 15#4).toNat = (s.reg x).toNat / 128 ∧
    pcPlus 2 s t ∧ sameRegsBut [x, 15#4] s t ∧ sameBut [.registers] s t)

/-- R163: the random byte AND the mask, whatever the byte is (`Config.rnd` is a free value, log 1); the next execution
takes another draw. -/
def Obligations.RndMasksTheRandomByte : Prop :=
  ∀ x kk (s : State), ∃ t, exec (.rnd x kk) s = .next t ∧
    (∀ j, (t.reg x).getLsbD j = ((Config.rnd s.draws).getLsbD j && kk.getLsbD j)) ∧ t.draws = s.draws + 1 ∧
    pcPlus 2 s t ∧ sameRegsBut [x] s t ∧ sameBut [.registers, .randomDraws] s t

/-! ### Display -/

/-- R180: all pixels 0; `REDRAW` and `V[15]` are not changed. -/
def Obligations.ClsClearsEveryPixel : Prop :=
  ∀ s, ∃ t, exec .cls s = .next t ∧ (∀ x y, t.pixel x y = false) ∧ pcPlus 2 s t ∧ sameBut [.display] s t

/-- R181: every pixel of the screen on which a set bit of the sprite falls is toggled and no other pixel is; `V[15]` is
1 exactly when one of them was lit; `REDRAW` is set. Coordinates are true sums, so nothing wraps. -/
def Obligations.DrwTogglesTheSpritesPixels : Prop :=
  ∀ x y n s, ∃ t, exec (.drw x y n) s = .next t ∧
    (∀ p q, p ≤ 63 → q ≤ 31 → t.pixel p q = (s.pixel p q ^^ s.spriteBit x y n p q)) ∧
    ((t.reg 15#4).toNat = 1 ↔ ∃ p q, p ≤ 63 ∧ q ≤ 31 ∧ s.spriteBit x y n p q = true ∧ s.pixel p q = true) ∧
    ((t.reg 15#4).toNat = 0 ∨ (t.reg 15#4).toNat = 1) ∧ t.redraw = true ∧ pcPlus 2 s t ∧
    sameRegsBut [15#4] s t ∧ sameBut [.display, .registers, .redrawFlag] s t

/-- R182: the same sprite drawn twice at the same place restores the display, and the second draw reports a collision
exactly when a set bit of the sprite falls on a pixel that was not lit before the first draw: the first draw lit it and
the second turns it off. The origin is not in the flag register, so that it stays. -/
def Obligations.DrawingTwiceRestores : Prop :=
  ∀ (x y n : Nibble) (s : State), x ≠ 15#4 → y ≠ 15#4 →
    ∃ t, execSeq [.drw x y n, .drw x y n] s = .next t ∧ (∀ p q, t.pixel p q = s.pixel p q) ∧
      ((t.reg 15#4).toNat = 1 ↔ ∃ p q, p ≤ 63 ∧ q ≤ 31 ∧ s.spriteBit x y n p q = true ∧ s.pixel p q = false)

/-! ### Keys and timers -/

/-- R190 and R191: the key is the value of `V[X]`; a value above 15 reads as not pressed (decision D10). -/
def Obligations.KeySkipsTestTheNamedKey : Prop :=
  (∀ x s, ∃ t, exec (.skp x) s = .next t ∧
    pcSkip ((s.reg x).toNat ≤ 15 ∧ s.keyDown (BitVec.ofNat 4 (s.reg x).toNat) = true) s t ∧ sameBut [] s t) ∧
  (∀ x s, ∃ t, exec (.sknp x) s = .next t ∧
    pcSkip (¬ ((s.reg x).toNat ≤ 15 ∧ s.keyDown (BitVec.ofNat 4 (s.reg x).toNat) = true)) s t ∧ sameBut [] s t)

/-- R192, R194, R195: the timer moves of an executing instruction; the tick of its cycle comes before it
(`TimersTickBeforeExecution`). -/
def Obligations.TimerMoves : Prop :=
  (∀ x s, ∃ t, exec (.ldVxDt x) s = .next t ∧ t.reg x = s.dt ∧ pcPlus 2 s t ∧ sameRegsBut [x] s t ∧
    sameBut [.registers] s t) ∧
  (∀ x s, ∃ t, exec (.ldDtVx x) s = .next t ∧ t.dt = s.reg x ∧ pcPlus 2 s t ∧ sameBut [.delayTimer] s t) ∧
  (∀ x s, ∃ t, exec (.ldStVx x) s = .next t ∧ t.st = s.reg x ∧ pcPlus 2 s t ∧ sameBut [.soundTimer] s t)

/-- R193: `LD Vx, K` blocks the core and advances `PC`, and writes no register, whatever keys are held; a later press of
any key puts its number in `V[X]` and ends the wait; a release does not. -/
def Obligations.WaitForKeyEndsAtThePress : Prop :=
  ∀ x s, ∃ t, exec (.ldVxK x) s = .next t ∧ t.wait = some x ∧ pcPlus 2 s t ∧ sameBut [.keyWait] s t ∧
    (∀ k, ∃ u, hostStep (.press k) t = .next u ∧ u.keyDown k = true ∧ (u.reg x).toNat = k.toNat ∧ u.wait = none ∧
      u.pc = t.pc ∧ sameRegsBut [x] s u) ∧
    (∀ k, ∃ u, hostStep (.release k) t = .next u ∧ u.wait = some x)

/-! ### Index register and memory instructions -/

/-- R200 to R202. -/
def Obligations.IndexRegisterWrites : Prop :=
  (∀ nnn s, ∃ t, exec (.ldI nnn) s = .next t ∧ t.i.toNat = nnn.toNat ∧ pcPlus 2 s t ∧ sameBut [.index] s t) ∧
  (∀ x s, ∃ t, exec (.addI x) s = .next t ∧ t.i.toNat = (s.i.toNat + (s.reg x).toNat) % 65536 ∧ pcPlus 2 s t ∧
    sameBut [.index] s t) ∧
  (∀ x s, ∃ t, exec (.ldF x) s = .next t ∧ t.i.toNat = (s.reg x).toNat * 5 ∧ pcPlus 2 s t ∧ sameBut [.index] s t)

/-- R203: hundreds, tens and ones at `I`, `I + 1`, `I + 2`, each dropped if its address is above 4095. -/
def Obligations.BcdStoresThreeDigits : Prop :=
  ∀ x (s : State), ∃ t, exec (.ldB x) s = .next t ∧
    (s.i.toNat ≤ 4095 → (t.memRead s.i.toNat).toNat = (s.reg x).toNat / 100) ∧
    (s.i.toNat + 1 ≤ 4095 → (t.memRead (s.i.toNat + 1)).toNat = (s.reg x).toNat / 10 % 10) ∧
    (s.i.toNat + 2 ≤ 4095 → (t.memRead (s.i.toNat + 2)).toNat = (s.reg x).toNat % 10) ∧
    (∀ a, ¬ (s.i.toNat ≤ a ∧ a < s.i.toNat + 3) → t.memRead a = s.memRead a) ∧ pcPlus 2 s t ∧ sameBut [.memory] s t

/-- R204: `V[0]` to `V[X]` at `I` upward, each byte dropped if its address is above 4095; `I` is unchanged. -/
def Obligations.StoreRegistersWritesTheBlock : Prop :=
  ∀ x (s : State), ∃ t, exec (.storeRegs x) s = .next t ∧
    (∀ k : Nibble, k.toNat ≤ x.toNat → s.i.toNat + k.toNat ≤ 4095 → t.memRead (s.i.toNat + k.toNat) = s.reg k) ∧
    (∀ a, ¬ (s.i.toNat ≤ a ∧ a < s.i.toNat + (x.toNat + 1)) → t.memRead a = s.memRead a) ∧ pcPlus 2 s t ∧
    sameBut [.memory] s t

/-- R205: `V[0]` to `V[X]` from `I` upward, a byte above 4095 as 0x00; the registers above `X`, `I` and memory are
unchanged. -/
def Obligations.LoadRegistersReadsTheBlock : Prop :=
  ∀ x (s : State), ∃ t, exec (.loadRegs x) s = .next t ∧
    (∀ k : Nibble, k.toNat ≤ x.toNat →
      t.reg k = if s.i.toNat + k.toNat ≤ 4095 then s.memRead (s.i.toNat + k.toNat) else 0x00#8) ∧
    (∀ k : Nibble, x.toNat < k.toNat → t.reg k = s.reg k) ∧ pcPlus 2 s t ∧ sameBut [.registers] s t

/-- R205: registers stored by a block store and loaded again from the same address come back, if nothing wrote the stored
bytes in between, whatever else changed. -/
def Obligations.StoreThenLoadRestoresRegisters : Prop :=
  ∀ (x : Nibble) (s u : State), s.i.toNat + x.toNat ≤ 4095 → u.i = s.i →
    (∀ t, exec (.storeRegs x) s = .next t →
      ∀ k : Nibble, k.toNat ≤ x.toNat → u.memRead (s.i.toNat + k.toNat) = t.memRead (s.i.toNat + k.toNat)) →
    ∃ w, exec (.loadRegs x) u = .next w ∧ ∀ k : Nibble, k.toNat ≤ x.toNat → w.reg k = s.reg k

/-! ### Whole-machine rules -/

/-- R21 to R35: each part of the state is written only by the instructions 10_state.md names, and a register only when
it is a named destination or the flag of a flag-writing instruction. -/
def Obligations.OnlyNamedInstructionsWrite : Prop :=
  ∀ i s t, exec i s = .next t →
    sameBut (writtenParts i) s t ∧
    ∀ r, t.reg r ≠ s.reg r → r ∈ destinations i ∨ (r = 15#4 ∧ writesFlag i = true)

/-- R22: a flag-writing instruction always leaves exactly 0 or 1 in `V[15]`, also when `X = 15`. -/
def Obligations.FlagIsZeroOrOne : Prop :=
  ∀ i s t, writesFlag i = true → exec i s = .next t → (t.reg 15#4).toNat = 0 ∨ (t.reg 15#4).toNat = 1

/-- R23: every instruction that is no jump, call, return or skip goes to `PC + 2`. -/
def Obligations.PlainInstructionsAdvanceByTwo : Prop :=
  ∀ i s t, transfersControl i = false → exec i s = .next t → pcPlus 2 s t

/-- R28, R32, R35, R36: no instruction reads `ST`, `REDRAW`, `sound_pulse` or its count (log 3), and only the key skips
read a key flag: with another value there, an instruction does the same and leaves that value, unless it writes it. -/
def Obligations.UnreadStateDoesNotMatter : Prop :=
  ∀ i s t, exec i s = .next t →
    (∀ b, exec i (s.setSoundPulse b) = .next (t.setSoundPulse b)) ∧
    (∀ n, exec i (s.setPulses n) = .next (t.setPulses n)) ∧
    (∀ b, (∀ x, i ≠ .ldStVx x) → exec i (s.setSt b) = .next (t.setSt b)) ∧
    (∀ b, (∀ x y n, i ≠ .drw x y n) → exec i (s.setRedraw b) = .next (t.setRedraw b)) ∧
    (∀ k b, (∀ x, i ≠ .skp x) → (∀ x, i ≠ .sknp x) → exec i (s.setKey k b) = .next (t.setKey k b))

/-! ### Encoding -/

/-- R91, R92: decoding the word of an instruction gives it back, with every operand at every value. The word encoded for
`Unrecognized` is the model's choice (log 7). -/
def Obligations.DecodeOfEncode : Prop := ∀ i : Instr, decode (encode i) = i

/-- R89, R91: the word of a decoded recognized shape is the decoded word, but for the low nibble that families 5 and 9
ignore; so no two words but such twins decode to one recognized instruction. -/
def Obligations.EncodeOfDecode : Prop :=
  ∀ w, (decode w).wellFormed = true →
    encode (decode w) = if w.toNat / 4096 = 5 ∨ w.toNat / 4096 = 9 then w &&& 0xFFF0#16 else w

/-- R90: a word decodes to a recognized shape of a row exactly when `w AND mask = match`; a word of the `SYS` row that is
not `CLS` or `RET`, and a word that matches no row of the 34 recognized shapes, is `Unrecognized`. -/
def Obligations.DecodeSelectsOpcodeRow : Prop :=
  (∀ w, w &&& (opcodeRow (decode w)).2 = (opcodeRow (decode w)).1 ∨ decode w = .unrecognized) ∧
  (∀ w i, i ≠ .unrecognized → w &&& (opcodeRow i).2 = (opcodeRow i).1 →
    decode w ≠ .unrecognized ∧ opcodeRow (decode w) = opcodeRow i) ∧
  (∀ w, w &&& (opcodeRow .unrecognized).2 = (opcodeRow .unrecognized).1 → w ≠ 0x00E0#16 → w ≠ 0x00EE#16 →
    decode w = .unrecognized) ∧
  (∀ w, (∀ i, i ≠ .unrecognized → w &&& (opcodeRow i).2 ≠ (opcodeRow i).1) → decode w = .unrecognized)

/-- R81: the operand fields are the word's bits. -/
def Obligations.DecodeExtractsFields : Prop := ∀ w, fieldsOf w (decode w)

/-- R93: which words are unrecognized, and that all of them behave alike. -/
def Obligations.UnrecognizedWordsAreExactlyThese : Prop :=
  ∀ w, (decode w = .unrecognized ↔ unrecognizedWord w) ∧
    (unrecognizedWord w → ∀ s, ∃ t, execWord w s = .next t ∧ pcPlus 2 s t ∧ sameBut [] s t)

/-- R96: the four decodings the source gives; and from 95_test_vectors.md section 2 at least one word for every family,
and an unrecognized one for each of the families 0, 8, E and F. -/
def Obligations.WorkedDecodings : Prop :=
  decode 0x00E0#16 = .cls ∧ decode 0x00EE#16 = .ret ∧ decode 0x1ABC#16 = .jp 0xABC#12 ∧
  decode 0x6A07#16 = .ldImm 0xA#4 0x07#8 ∧
  decode 0x0FEE#16 = .unrecognized ∧ decode 0x1FFF#16 = .jp 0xFFF#12 ∧ decode 0x2ABC#16 = .call 0xABC#12 ∧
  decode 0x3A07#16 = .seImm 0xA#4 0x07#8 ∧ decode 0x4FFF#16 = .sneImm 0xF#4 0xFF#8 ∧
  decode 0x512F#16 = .seReg 1#4 2#4 ∧ decode 0x6000#16 = .ldImm 0#4 0x00#8 ∧
  decode 0x7F01#16 = .addImm 0xF#4 0x01#8 ∧ decode 0x812E#16 = .shl 1#4 2#4 ∧
  decode 0x812F#16 = .unrecognized ∧ decode 0x9AB7#16 = .sneReg 0xA#4 0xB#4 ∧ decode 0xA123#16 = .ldI 0x123#12 ∧
  decode 0xB300#16 = .jpV0 0x300#12 ∧ decode 0xC30F#16 = .rnd 3#4 0x0F#8 ∧ decode 0xD125#16 = .drw 1#4 2#4 5#4 ∧
  decode 0xE29E#16 = .skp 2#4 ∧ decode 0xE29F#16 = .unrecognized ∧ decode 0xF765#16 = .loadRegs 7#4 ∧
  decode 0xF075#16 = .unrecognized
end

