-- ==== Sys2Proof/Laws/State.lean ====
section
/-! SUPPORT. What each named update of State leaves in each field, one lemma per field and update, and in each view of
a field (a register, a stack slot, a key flag, a byte of memory, a pixel). -/

namespace Sys2Proof.Machine

variable (s : State)

/-! ### setReg -/

@[simp] theorem State.setReg_i (r : Nibble) (b : Byte) : (s.setReg r b).i = s.i := rfl
@[simp] theorem State.setReg_pc (r : Nibble) (b : Byte) : (s.setReg r b).pc = s.pc := rfl
@[simp] theorem State.setReg_sp (r : Nibble) (b : Byte) : (s.setReg r b).sp = s.sp := rfl
@[simp] theorem State.setReg_stack (r : Nibble) (b : Byte) : (s.setReg r b).stack = s.stack := rfl
@[simp] theorem State.setReg_mem (r : Nibble) (b : Byte) : (s.setReg r b).mem = s.mem := rfl
@[simp] theorem State.setReg_disp (r : Nibble) (b : Byte) : (s.setReg r b).disp = s.disp := rfl
@[simp] theorem State.setReg_dt (r : Nibble) (b : Byte) : (s.setReg r b).dt = s.dt := rfl
@[simp] theorem State.setReg_st (r : Nibble) (b : Byte) : (s.setReg r b).st = s.st := rfl
@[simp] theorem State.setReg_key (r : Nibble) (b : Byte) : (s.setReg r b).key = s.key := rfl
@[simp] theorem State.setReg_wait (r : Nibble) (b : Byte) : (s.setReg r b).wait = s.wait := rfl
@[simp] theorem State.setReg_redraw (r : Nibble) (b : Byte) : (s.setReg r b).redraw = s.redraw := rfl
@[simp] theorem State.setReg_soundPulse (r : Nibble) (b : Byte) : (s.setReg r b).soundPulse = s.soundPulse := rfl
@[simp] theorem State.setReg_pulses (r : Nibble) (b : Byte) : (s.setReg r b).pulses = s.pulses := rfl
@[simp] theorem State.setReg_draws (r : Nibble) (b : Byte) : (s.setReg r b).draws = s.draws := rfl
@[simp] theorem State.setReg_hostOps (r : Nibble) (b : Byte) : (s.setReg r b).hostOps = s.hostOps := rfl
@[simp] theorem State.setReg_slot (r : Nibble) (b : Byte) (q : Byte) : (s.setReg r b).slot q = s.slot q := rfl
@[simp] theorem State.setReg_keyDown (r : Nibble) (b : Byte) (q : Nibble) : (s.setReg r b).keyDown q = s.keyDown q := rfl
@[simp] theorem State.setReg_memRead (r : Nibble) (b : Byte) (q : Nat) : (s.setReg r b).memRead q = s.memRead q := rfl
@[simp] theorem State.setReg_pixel (r : Nibble) (b : Byte) (p q : Nat) : (s.setReg r b).pixel p q = s.pixel p q := rfl

/-! ### setRegs -/

@[simp] theorem State.setRegs_v (u : Vector Byte 16) : (s.setRegs u).v = u := rfl
@[simp] theorem State.setRegs_i (u : Vector Byte 16) : (s.setRegs u).i = s.i := rfl
@[simp] theorem State.setRegs_pc (u : Vector Byte 16) : (s.setRegs u).pc = s.pc := rfl
@[simp] theorem State.setRegs_sp (u : Vector Byte 16) : (s.setRegs u).sp = s.sp := rfl
@[simp] theorem State.setRegs_stack (u : Vector Byte 16) : (s.setRegs u).stack = s.stack := rfl
@[simp] theorem State.setRegs_mem (u : Vector Byte 16) : (s.setRegs u).mem = s.mem := rfl
@[simp] theorem State.setRegs_disp (u : Vector Byte 16) : (s.setRegs u).disp = s.disp := rfl
@[simp] theorem State.setRegs_dt (u : Vector Byte 16) : (s.setRegs u).dt = s.dt := rfl
@[simp] theorem State.setRegs_st (u : Vector Byte 16) : (s.setRegs u).st = s.st := rfl
@[simp] theorem State.setRegs_key (u : Vector Byte 16) : (s.setRegs u).key = s.key := rfl
@[simp] theorem State.setRegs_wait (u : Vector Byte 16) : (s.setRegs u).wait = s.wait := rfl
@[simp] theorem State.setRegs_redraw (u : Vector Byte 16) : (s.setRegs u).redraw = s.redraw := rfl
@[simp] theorem State.setRegs_soundPulse (u : Vector Byte 16) : (s.setRegs u).soundPulse = s.soundPulse := rfl
@[simp] theorem State.setRegs_pulses (u : Vector Byte 16) : (s.setRegs u).pulses = s.pulses := rfl
@[simp] theorem State.setRegs_draws (u : Vector Byte 16) : (s.setRegs u).draws = s.draws := rfl
@[simp] theorem State.setRegs_hostOps (u : Vector Byte 16) : (s.setRegs u).hostOps = s.hostOps := rfl
@[simp] theorem State.setRegs_slot (u : Vector Byte 16) (q : Byte) : (s.setRegs u).slot q = s.slot q := rfl
@[simp] theorem State.setRegs_keyDown (u : Vector Byte 16) (q : Nibble) : (s.setRegs u).keyDown q = s.keyDown q := rfl
@[simp] theorem State.setRegs_memRead (u : Vector Byte 16) (q : Nat) : (s.setRegs u).memRead q = s.memRead q := rfl
@[simp] theorem State.setRegs_pixel (u : Vector Byte 16) (p q : Nat) : (s.setRegs u).pixel p q = s.pixel p q := rfl

/-! ### setI -/

@[simp] theorem State.setI_v (w : Word) : (s.setI w).v = s.v := rfl
@[simp] theorem State.setI_i (w : Word) : (s.setI w).i = w := rfl
@[simp] theorem State.setI_pc (w : Word) : (s.setI w).pc = s.pc := rfl
@[simp] theorem State.setI_sp (w : Word) : (s.setI w).sp = s.sp := rfl
@[simp] theorem State.setI_stack (w : Word) : (s.setI w).stack = s.stack := rfl
@[simp] theorem State.setI_mem (w : Word) : (s.setI w).mem = s.mem := rfl
@[simp] theorem State.setI_disp (w : Word) : (s.setI w).disp = s.disp := rfl
@[simp] theorem State.setI_dt (w : Word) : (s.setI w).dt = s.dt := rfl
@[simp] theorem State.setI_st (w : Word) : (s.setI w).st = s.st := rfl
@[simp] theorem State.setI_key (w : Word) : (s.setI w).key = s.key := rfl
@[simp] theorem State.setI_wait (w : Word) : (s.setI w).wait = s.wait := rfl
@[simp] theorem State.setI_redraw (w : Word) : (s.setI w).redraw = s.redraw := rfl
@[simp] theorem State.setI_soundPulse (w : Word) : (s.setI w).soundPulse = s.soundPulse := rfl
@[simp] theorem State.setI_pulses (w : Word) : (s.setI w).pulses = s.pulses := rfl
@[simp] theorem State.setI_draws (w : Word) : (s.setI w).draws = s.draws := rfl
@[simp] theorem State.setI_hostOps (w : Word) : (s.setI w).hostOps = s.hostOps := rfl
@[simp] theorem State.setI_reg (w : Word) (q : Nibble) : (s.setI w).reg q = s.reg q := rfl
@[simp] theorem State.setI_slot (w : Word) (q : Byte) : (s.setI w).slot q = s.slot q := rfl
@[simp] theorem State.setI_keyDown (w : Word) (q : Nibble) : (s.setI w).keyDown q = s.keyDown q := rfl
@[simp] theorem State.setI_memRead (w : Word) (q : Nat) : (s.setI w).memRead q = s.memRead q := rfl
@[simp] theorem State.setI_pixel (w : Word) (p q : Nat) : (s.setI w).pixel p q = s.pixel p q := rfl

/-! ### setPc -/

@[simp] theorem State.setPc_v (w : Word) : (s.setPc w).v = s.v := rfl
@[simp] theorem State.setPc_i (w : Word) : (s.setPc w).i = s.i := rfl
@[simp] theorem State.setPc_pc (w : Word) : (s.setPc w).pc = w := rfl
@[simp] theorem State.setPc_sp (w : Word) : (s.setPc w).sp = s.sp := rfl
@[simp] theorem State.setPc_stack (w : Word) : (s.setPc w).stack = s.stack := rfl
@[simp] theorem State.setPc_mem (w : Word) : (s.setPc w).mem = s.mem := rfl
@[simp] theorem State.setPc_disp (w : Word) : (s.setPc w).disp = s.disp := rfl
@[simp] theorem State.setPc_dt (w : Word) : (s.setPc w).dt = s.dt := rfl
@[simp] theorem State.setPc_st (w : Word) : (s.setPc w).st = s.st := rfl
@[simp] theorem State.setPc_key (w : Word) : (s.setPc w).key = s.key := rfl
@[simp] theorem State.setPc_wait (w : Word) : (s.setPc w).wait = s.wait := rfl
@[simp] theorem State.setPc_redraw (w : Word) : (s.setPc w).redraw = s.redraw := rfl
@[simp] theorem State.setPc_soundPulse (w : Word) : (s.setPc w).soundPulse = s.soundPulse := rfl
@[simp] theorem State.setPc_pulses (w : Word) : (s.setPc w).pulses = s.pulses := rfl
@[simp] theorem State.setPc_draws (w : Word) : (s.setPc w).draws = s.draws := rfl
@[simp] theorem State.setPc_hostOps (w : Word) : (s.setPc w).hostOps = s.hostOps := rfl
@[simp] theorem State.setPc_reg (w : Word) (q : Nibble) : (s.setPc w).reg q = s.reg q := rfl
@[simp] theorem State.setPc_slot (w : Word) (q : Byte) : (s.setPc w).slot q = s.slot q := rfl
@[simp] theorem State.setPc_keyDown (w : Word) (q : Nibble) : (s.setPc w).keyDown q = s.keyDown q := rfl
@[simp] theorem State.setPc_memRead (w : Word) (q : Nat) : (s.setPc w).memRead q = s.memRead q := rfl
@[simp] theorem State.setPc_pixel (w : Word) (p q : Nat) : (s.setPc w).pixel p q = s.pixel p q := rfl

/-! ### setSp -/

@[simp] theorem State.setSp_v (b : Byte) : (s.setSp b).v = s.v := rfl
@[simp] theorem State.setSp_i (b : Byte) : (s.setSp b).i = s.i := rfl
@[simp] theorem State.setSp_pc (b : Byte) : (s.setSp b).pc = s.pc := rfl
@[simp] theorem State.setSp_sp (b : Byte) : (s.setSp b).sp = b := rfl
@[simp] theorem State.setSp_stack (b : Byte) : (s.setSp b).stack = s.stack := rfl
@[simp] theorem State.setSp_mem (b : Byte) : (s.setSp b).mem = s.mem := rfl
@[simp] theorem State.setSp_disp (b : Byte) : (s.setSp b).disp = s.disp := rfl
@[simp] theorem State.setSp_dt (b : Byte) : (s.setSp b).dt = s.dt := rfl
@[simp] theorem State.setSp_st (b : Byte) : (s.setSp b).st = s.st := rfl
@[simp] theorem State.setSp_key (b : Byte) : (s.setSp b).key = s.key := rfl
@[simp] theorem State.setSp_wait (b : Byte) : (s.setSp b).wait = s.wait := rfl
@[simp] theorem State.setSp_redraw (b : Byte) : (s.setSp b).redraw = s.redraw := rfl
@[simp] theorem State.setSp_soundPulse (b : Byte) : (s.setSp b).soundPulse = s.soundPulse := rfl
@[simp] theorem State.setSp_pulses (b : Byte) : (s.setSp b).pulses = s.pulses := rfl
@[simp] theorem State.setSp_draws (b : Byte) : (s.setSp b).draws = s.draws := rfl
@[simp] theorem State.setSp_hostOps (b : Byte) : (s.setSp b).hostOps = s.hostOps := rfl
@[simp] theorem State.setSp_reg (b : Byte) (q : Nibble) : (s.setSp b).reg q = s.reg q := rfl
@[simp] theorem State.setSp_slot (b : Byte) (q : Byte) : (s.setSp b).slot q = s.slot q := rfl
@[simp] theorem State.setSp_keyDown (b : Byte) (q : Nibble) : (s.setSp b).keyDown q = s.keyDown q := rfl
@[simp] theorem State.setSp_memRead (b : Byte) (q : Nat) : (s.setSp b).memRead q = s.memRead q := rfl
@[simp] theorem State.setSp_pixel (b : Byte) (p q : Nat) : (s.setSp b).pixel p q = s.pixel p q := rfl

/-! ### setSlot -/

@[simp] theorem State.setSlot_v (j : Byte) (w : Word) : (s.setSlot j w).v = s.v := rfl
@[simp] theorem State.setSlot_i (j : Byte) (w : Word) : (s.setSlot j w).i = s.i := rfl
@[simp] theorem State.setSlot_pc (j : Byte) (w : Word) : (s.setSlot j w).pc = s.pc := rfl
@[simp] theorem State.setSlot_sp (j : Byte) (w : Word) : (s.setSlot j w).sp = s.sp := rfl
@[simp] theorem State.setSlot_mem (j : Byte) (w : Word) : (s.setSlot j w).mem = s.mem := rfl
@[simp] theorem State.setSlot_disp (j : Byte) (w : Word) : (s.setSlot j w).disp = s.disp := rfl
@[simp] theorem State.setSlot_dt (j : Byte) (w : Word) : (s.setSlot j w).dt = s.dt := rfl
@[simp] theorem State.setSlot_st (j : Byte) (w : Word) : (s.setSlot j w).st = s.st := rfl
@[simp] theorem State.setSlot_key (j : Byte) (w : Word) : (s.setSlot j w).key = s.key := rfl
@[simp] theorem State.setSlot_wait (j : Byte) (w : Word) : (s.setSlot j w).wait = s.wait := rfl
@[simp] theorem State.setSlot_redraw (j : Byte) (w : Word) : (s.setSlot j w).redraw = s.redraw := rfl
@[simp] theorem State.setSlot_soundPulse (j : Byte) (w : Word) : (s.setSlot j w).soundPulse = s.soundPulse := rfl
@[simp] theorem State.setSlot_pulses (j : Byte) (w : Word) : (s.setSlot j w).pulses = s.pulses := rfl
@[simp] theorem State.setSlot_draws (j : Byte) (w : Word) : (s.setSlot j w).draws = s.draws := rfl
@[simp] theorem State.setSlot_hostOps (j : Byte) (w : Word) : (s.setSlot j w).hostOps = s.hostOps := rfl
@[simp] theorem State.setSlot_reg (j : Byte) (w : Word) (q : Nibble) : (s.setSlot j w).reg q = s.reg q := rfl
@[simp] theorem State.setSlot_keyDown (j : Byte) (w : Word) (q : Nibble) : (s.setSlot j w).keyDown q = s.keyDown q := rfl
@[simp] theorem State.setSlot_memRead (j : Byte) (w : Word) (q : Nat) : (s.setSlot j w).memRead q = s.memRead q := rfl
@[simp] theorem State.setSlot_pixel (j : Byte) (w : Word) (p q : Nat) : (s.setSlot j w).pixel p q = s.pixel p q := rfl

/-! ### store -/

@[simp] theorem State.store_v (a : Nat) (bs : List Byte) : (s.store a bs).v = s.v := rfl
@[simp] theorem State.store_i (a : Nat) (bs : List Byte) : (s.store a bs).i = s.i := rfl
@[simp] theorem State.store_pc (a : Nat) (bs : List Byte) : (s.store a bs).pc = s.pc := rfl
@[simp] theorem State.store_sp (a : Nat) (bs : List Byte) : (s.store a bs).sp = s.sp := rfl
@[simp] theorem State.store_stack (a : Nat) (bs : List Byte) : (s.store a bs).stack = s.stack := rfl
@[simp] theorem State.store_mem (a : Nat) (bs : List Byte) : (s.store a bs).mem = Memory.writeBytes s.mem a bs := rfl
@[simp] theorem State.store_disp (a : Nat) (bs : List Byte) : (s.store a bs).disp = s.disp := rfl
@[simp] theorem State.store_dt (a : Nat) (bs : List Byte) : (s.store a bs).dt = s.dt := rfl
@[simp] theorem State.store_st (a : Nat) (bs : List Byte) : (s.store a bs).st = s.st := rfl
@[simp] theorem State.store_key (a : Nat) (bs : List Byte) : (s.store a bs).key = s.key := rfl
@[simp] theorem State.store_wait (a : Nat) (bs : List Byte) : (s.store a bs).wait = s.wait := rfl
@[simp] theorem State.store_redraw (a : Nat) (bs : List Byte) : (s.store a bs).redraw = s.redraw := rfl
@[simp] theorem State.store_soundPulse (a : Nat) (bs : List Byte) : (s.store a bs).soundPulse = s.soundPulse := rfl
@[simp] theorem State.store_pulses (a : Nat) (bs : List Byte) : (s.store a bs).pulses = s.pulses := rfl
@[simp] theorem State.store_draws (a : Nat) (bs : List Byte) : (s.store a bs).draws = s.draws := rfl
@[simp] theorem State.store_hostOps (a : Nat) (bs : List Byte) : (s.store a bs).hostOps = s.hostOps := rfl
@[simp] theorem State.store_reg (a : Nat) (bs : List Byte) (q : Nibble) : (s.store a bs).reg q = s.reg q := rfl
@[simp] theorem State.store_slot (a : Nat) (bs : List Byte) (q : Byte) : (s.store a bs).slot q = s.slot q := rfl
@[simp] theorem State.store_keyDown (a : Nat) (bs : List Byte) (q : Nibble) : (s.store a bs).keyDown q = s.keyDown q := rfl
@[simp] theorem State.store_pixel (a : Nat) (bs : List Byte) (p q : Nat) : (s.store a bs).pixel p q = s.pixel p q := rfl

/-! ### setDisp -/

@[simp] theorem State.setDisp_v (d : Display) : (s.setDisp d).v = s.v := rfl
@[simp] theorem State.setDisp_i (d : Display) : (s.setDisp d).i = s.i := rfl
@[simp] theorem State.setDisp_pc (d : Display) : (s.setDisp d).pc = s.pc := rfl
@[simp] theorem State.setDisp_sp (d : Display) : (s.setDisp d).sp = s.sp := rfl
@[simp] theorem State.setDisp_stack (d : Display) : (s.setDisp d).stack = s.stack := rfl
@[simp] theorem State.setDisp_mem (d : Display) : (s.setDisp d).mem = s.mem := rfl
@[simp] theorem State.setDisp_disp (d : Display) : (s.setDisp d).disp = d := rfl
@[simp] theorem State.setDisp_dt (d : Display) : (s.setDisp d).dt = s.dt := rfl
@[simp] theorem State.setDisp_st (d : Display) : (s.setDisp d).st = s.st := rfl
@[simp] theorem State.setDisp_key (d : Display) : (s.setDisp d).key = s.key := rfl
@[simp] theorem State.setDisp_wait (d : Display) : (s.setDisp d).wait = s.wait := rfl
@[simp] theorem State.setDisp_redraw (d : Display) : (s.setDisp d).redraw = s.redraw := rfl
@[simp] theorem State.setDisp_soundPulse (d : Display) : (s.setDisp d).soundPulse = s.soundPulse := rfl
@[simp] theorem State.setDisp_pulses (d : Display) : (s.setDisp d).pulses = s.pulses := rfl
@[simp] theorem State.setDisp_draws (d : Display) : (s.setDisp d).draws = s.draws := rfl
@[simp] theorem State.setDisp_hostOps (d : Display) : (s.setDisp d).hostOps = s.hostOps := rfl
@[simp] theorem State.setDisp_reg (d : Display) (q : Nibble) : (s.setDisp d).reg q = s.reg q := rfl
@[simp] theorem State.setDisp_slot (d : Display) (q : Byte) : (s.setDisp d).slot q = s.slot q := rfl
@[simp] theorem State.setDisp_keyDown (d : Display) (q : Nibble) : (s.setDisp d).keyDown q = s.keyDown q := rfl
@[simp] theorem State.setDisp_memRead (d : Display) (q : Nat) : (s.setDisp d).memRead q = s.memRead q := rfl

/-! ### setDt -/

@[simp] theorem State.setDt_v (b : Byte) : (s.setDt b).v = s.v := rfl
@[simp] theorem State.setDt_i (b : Byte) : (s.setDt b).i = s.i := rfl
@[simp] theorem State.setDt_pc (b : Byte) : (s.setDt b).pc = s.pc := rfl
@[simp] theorem State.setDt_sp (b : Byte) : (s.setDt b).sp = s.sp := rfl
@[simp] theorem State.setDt_stack (b : Byte) : (s.setDt b).stack = s.stack := rfl
@[simp] theorem State.setDt_mem (b : Byte) : (s.setDt b).mem = s.mem := rfl
@[simp] theorem State.setDt_disp (b : Byte) : (s.setDt b).disp = s.disp := rfl
@[simp] theorem State.setDt_dt (b : Byte) : (s.setDt b).dt = b := rfl
@[simp] theorem State.setDt_st (b : Byte) : (s.setDt b).st = s.st := rfl
@[simp] theorem State.setDt_key (b : Byte) : (s.setDt b).key = s.key := rfl
@[simp] theorem State.setDt_wait (b : Byte) : (s.setDt b).wait = s.wait := rfl
@[simp] theorem State.setDt_redraw (b : Byte) : (s.setDt b).redraw = s.redraw := rfl
@[simp] theorem State.setDt_soundPulse (b : Byte) : (s.setDt b).soundPulse = s.soundPulse := rfl
@[simp] theorem State.setDt_pulses (b : Byte) : (s.setDt b).pulses = s.pulses := rfl
@[simp] theorem State.setDt_draws (b : Byte) : (s.setDt b).draws = s.draws := rfl
@[simp] theorem State.setDt_hostOps (b : Byte) : (s.setDt b).hostOps = s.hostOps := rfl
@[simp] theorem State.setDt_reg (b : Byte) (q : Nibble) : (s.setDt b).reg q = s.reg q := rfl
@[simp] theorem State.setDt_slot (b : Byte) (q : Byte) : (s.setDt b).slot q = s.slot q := rfl
@[simp] theorem State.setDt_keyDown (b : Byte) (q : Nibble) : (s.setDt b).keyDown q = s.keyDown q := rfl
@[simp] theorem State.setDt_memRead (b : Byte) (q : Nat) : (s.setDt b).memRead q = s.memRead q := rfl
@[simp] theorem State.setDt_pixel (b : Byte) (p q : Nat) : (s.setDt b).pixel p q = s.pixel p q := rfl

/-! ### setSt -/

@[simp] theorem State.setSt_v (b : Byte) : (s.setSt b).v = s.v := rfl
@[simp] theorem State.setSt_i (b : Byte) : (s.setSt b).i = s.i := rfl
@[simp] theorem State.setSt_pc (b : Byte) : (s.setSt b).pc = s.pc := rfl
@[simp] theorem State.setSt_sp (b : Byte) : (s.setSt b).sp = s.sp := rfl
@[simp] theorem State.setSt_stack (b : Byte) : (s.setSt b).stack = s.stack := rfl
@[simp] theorem State.setSt_mem (b : Byte) : (s.setSt b).mem = s.mem := rfl
@[simp] theorem State.setSt_disp (b : Byte) : (s.setSt b).disp = s.disp := rfl
@[simp] theorem State.setSt_dt (b : Byte) : (s.setSt b).dt = s.dt := rfl
@[simp] theorem State.setSt_st (b : Byte) : (s.setSt b).st = b := rfl
@[simp] theorem State.setSt_key (b : Byte) : (s.setSt b).key = s.key := rfl
@[simp] theorem State.setSt_wait (b : Byte) : (s.setSt b).wait = s.wait := rfl
@[simp] theorem State.setSt_redraw (b : Byte) : (s.setSt b).redraw = s.redraw := rfl
@[simp] theorem State.setSt_soundPulse (b : Byte) : (s.setSt b).soundPulse = s.soundPulse := rfl
@[simp] theorem State.setSt_pulses (b : Byte) : (s.setSt b).pulses = s.pulses := rfl
@[simp] theorem State.setSt_draws (b : Byte) : (s.setSt b).draws = s.draws := rfl
@[simp] theorem State.setSt_hostOps (b : Byte) : (s.setSt b).hostOps = s.hostOps := rfl
@[simp] theorem State.setSt_reg (b : Byte) (q : Nibble) : (s.setSt b).reg q = s.reg q := rfl
@[simp] theorem State.setSt_slot (b : Byte) (q : Byte) : (s.setSt b).slot q = s.slot q := rfl
@[simp] theorem State.setSt_keyDown (b : Byte) (q : Nibble) : (s.setSt b).keyDown q = s.keyDown q := rfl
@[simp] theorem State.setSt_memRead (b : Byte) (q : Nat) : (s.setSt b).memRead q = s.memRead q := rfl
@[simp] theorem State.setSt_pixel (b : Byte) (p q : Nat) : (s.setSt b).pixel p q = s.pixel p q := rfl

/-! ### setKey -/

@[simp] theorem State.setKey_v (k : Nibble) (b : Bool) : (s.setKey k b).v = s.v := rfl
@[simp] theorem State.setKey_i (k : Nibble) (b : Bool) : (s.setKey k b).i = s.i := rfl
@[simp] theorem State.setKey_pc (k : Nibble) (b : Bool) : (s.setKey k b).pc = s.pc := rfl
@[simp] theorem State.setKey_sp (k : Nibble) (b : Bool) : (s.setKey k b).sp = s.sp := rfl
@[simp] theorem State.setKey_stack (k : Nibble) (b : Bool) : (s.setKey k b).stack = s.stack := rfl
@[simp] theorem State.setKey_mem (k : Nibble) (b : Bool) : (s.setKey k b).mem = s.mem := rfl
@[simp] theorem State.setKey_disp (k : Nibble) (b : Bool) : (s.setKey k b).disp = s.disp := rfl
@[simp] theorem State.setKey_dt (k : Nibble) (b : Bool) : (s.setKey k b).dt = s.dt := rfl
@[simp] theorem State.setKey_st (k : Nibble) (b : Bool) : (s.setKey k b).st = s.st := rfl
@[simp] theorem State.setKey_wait (k : Nibble) (b : Bool) : (s.setKey k b).wait = s.wait := rfl
@[simp] theorem State.setKey_redraw (k : Nibble) (b : Bool) : (s.setKey k b).redraw = s.redraw := rfl
@[simp] theorem State.setKey_soundPulse (k : Nibble) (b : Bool) : (s.setKey k b).soundPulse = s.soundPulse := rfl
@[simp] theorem State.setKey_pulses (k : Nibble) (b : Bool) : (s.setKey k b).pulses = s.pulses := rfl
@[simp] theorem State.setKey_draws (k : Nibble) (b : Bool) : (s.setKey k b).draws = s.draws := rfl
@[simp] theorem State.setKey_hostOps (k : Nibble) (b : Bool) : (s.setKey k b).hostOps = s.hostOps := rfl
@[simp] theorem State.setKey_reg (k : Nibble) (b : Bool) (q : Nibble) : (s.setKey k b).reg q = s.reg q := rfl
@[simp] theorem State.setKey_slot (k : Nibble) (b : Bool) (q : Byte) : (s.setKey k b).slot q = s.slot q := rfl
@[simp] theorem State.setKey_memRead (k : Nibble) (b : Bool) (q : Nat) : (s.setKey k b).memRead q = s.memRead q := rfl
@[simp] theorem State.setKey_pixel (k : Nibble) (b : Bool) (p q : Nat) : (s.setKey k b).pixel p q = s.pixel p q := rfl

/-! ### setWait -/

@[simp] theorem State.setWait_v (w : Option Nibble) : (s.setWait w).v = s.v := rfl
@[simp] theorem State.setWait_i (w : Option Nibble) : (s.setWait w).i = s.i := rfl
@[simp] theorem State.setWait_pc (w : Option Nibble) : (s.setWait w).pc = s.pc := rfl
@[simp] theorem State.setWait_sp (w : Option Nibble) : (s.setWait w).sp = s.sp := rfl
@[simp] theorem State.setWait_stack (w : Option Nibble) : (s.setWait w).stack = s.stack := rfl
@[simp] theorem State.setWait_mem (w : Option Nibble) : (s.setWait w).mem = s.mem := rfl
@[simp] theorem State.setWait_disp (w : Option Nibble) : (s.setWait w).disp = s.disp := rfl
@[simp] theorem State.setWait_dt (w : Option Nibble) : (s.setWait w).dt = s.dt := rfl
@[simp] theorem State.setWait_st (w : Option Nibble) : (s.setWait w).st = s.st := rfl
@[simp] theorem State.setWait_key (w : Option Nibble) : (s.setWait w).key = s.key := rfl
@[simp] theorem State.setWait_wait (w : Option Nibble) : (s.setWait w).wait = w := rfl
@[simp] theorem State.setWait_redraw (w : Option Nibble) : (s.setWait w).redraw = s.redraw := rfl
@[simp] theorem State.setWait_soundPulse (w : Option Nibble) : (s.setWait w).soundPulse = s.soundPulse := rfl
@[simp] theorem State.setWait_pulses (w : Option Nibble) : (s.setWait w).pulses = s.pulses := rfl
@[simp] theorem State.setWait_draws (w : Option Nibble) : (s.setWait w).draws = s.draws := rfl
@[simp] theorem State.setWait_hostOps (w : Option Nibble) : (s.setWait w).hostOps = s.hostOps := rfl
@[simp] theorem State.setWait_reg (w : Option Nibble) (q : Nibble) : (s.setWait w).reg q = s.reg q := rfl
@[simp] theorem State.setWait_slot (w : Option Nibble) (q : Byte) : (s.setWait w).slot q = s.slot q := rfl
@[simp] theorem State.setWait_keyDown (w : Option Nibble) (q : Nibble) : (s.setWait w).keyDown q = s.keyDown q := rfl
@[simp] theorem State.setWait_memRead (w : Option Nibble) (q : Nat) : (s.setWait w).memRead q = s.memRead q := rfl
@[simp] theorem State.setWait_pixel (w : Option Nibble) (p q : Nat) : (s.setWait w).pixel p q = s.pixel p q := rfl

/-! ### setRedraw -/

@[simp] theorem State.setRedraw_v (b : Bool) : (s.setRedraw b).v = s.v := rfl
@[simp] theorem State.setRedraw_i (b : Bool) : (s.setRedraw b).i = s.i := rfl
@[simp] theorem State.setRedraw_pc (b : Bool) : (s.setRedraw b).pc = s.pc := rfl
@[simp] theorem State.setRedraw_sp (b : Bool) : (s.setRedraw b).sp = s.sp := rfl
@[simp] theorem State.setRedraw_stack (b : Bool) : (s.setRedraw b).stack = s.stack := rfl
@[simp] theorem State.setRedraw_mem (b : Bool) : (s.setRedraw b).mem = s.mem := rfl
@[simp] theorem State.setRedraw_disp (b : Bool) : (s.setRedraw b).disp = s.disp := rfl
@[simp] theorem State.setRedraw_dt (b : Bool) : (s.setRedraw b).dt = s.dt := rfl
@[simp] theorem State.setRedraw_st (b : Bool) : (s.setRedraw b).st = s.st := rfl
@[simp] theorem State.setRedraw_key (b : Bool) : (s.setRedraw b).key = s.key := rfl
@[simp] theorem State.setRedraw_wait (b : Bool) : (s.setRedraw b).wait = s.wait := rfl
@[simp] theorem State.setRedraw_redraw (b : Bool) : (s.setRedraw b).redraw = b := rfl
@[simp] theorem State.setRedraw_soundPulse (b : Bool) : (s.setRedraw b).soundPulse = s.soundPulse := rfl
@[simp] theorem State.setRedraw_pulses (b : Bool) : (s.setRedraw b).pulses = s.pulses := rfl
@[simp] theorem State.setRedraw_draws (b : Bool) : (s.setRedraw b).draws = s.draws := rfl
@[simp] theorem State.setRedraw_hostOps (b : Bool) : (s.setRedraw b).hostOps = s.hostOps := rfl
@[simp] theorem State.setRedraw_reg (b : Bool) (q : Nibble) : (s.setRedraw b).reg q = s.reg q := rfl
@[simp] theorem State.setRedraw_slot (b : Bool) (q : Byte) : (s.setRedraw b).slot q = s.slot q := rfl
@[simp] theorem State.setRedraw_keyDown (b : Bool) (q : Nibble) : (s.setRedraw b).keyDown q = s.keyDown q := rfl
@[simp] theorem State.setRedraw_memRead (b : Bool) (q : Nat) : (s.setRedraw b).memRead q = s.memRead q := rfl
@[simp] theorem State.setRedraw_pixel (b : Bool) (p q : Nat) : (s.setRedraw b).pixel p q = s.pixel p q := rfl

/-! ### setSoundPulse -/

@[simp] theorem State.setSoundPulse_v (b : Bool) : (s.setSoundPulse b).v = s.v := rfl
@[simp] theorem State.setSoundPulse_i (b : Bool) : (s.setSoundPulse b).i = s.i := rfl
@[simp] theorem State.setSoundPulse_pc (b : Bool) : (s.setSoundPulse b).pc = s.pc := rfl
@[simp] theorem State.setSoundPulse_sp (b : Bool) : (s.setSoundPulse b).sp = s.sp := rfl
@[simp] theorem State.setSoundPulse_stack (b : Bool) : (s.setSoundPulse b).stack = s.stack := rfl
@[simp] theorem State.setSoundPulse_mem (b : Bool) : (s.setSoundPulse b).mem = s.mem := rfl
@[simp] theorem State.setSoundPulse_disp (b : Bool) : (s.setSoundPulse b).disp = s.disp := rfl
@[simp] theorem State.setSoundPulse_dt (b : Bool) : (s.setSoundPulse b).dt = s.dt := rfl
@[simp] theorem State.setSoundPulse_st (b : Bool) : (s.setSoundPulse b).st = s.st := rfl
@[simp] theorem State.setSoundPulse_key (b : Bool) : (s.setSoundPulse b).key = s.key := rfl
@[simp] theorem State.setSoundPulse_wait (b : Bool) : (s.setSoundPulse b).wait = s.wait := rfl
@[simp] theorem State.setSoundPulse_redraw (b : Bool) : (s.setSoundPulse b).redraw = s.redraw := rfl
@[simp] theorem State.setSoundPulse_soundPulse (b : Bool) : (s.setSoundPulse b).soundPulse = b := rfl
@[simp] theorem State.setSoundPulse_pulses (b : Bool) : (s.setSoundPulse b).pulses = s.pulses := rfl
@[simp] theorem State.setSoundPulse_draws (b : Bool) : (s.setSoundPulse b).draws = s.draws := rfl
@[simp] theorem State.setSoundPulse_hostOps (b : Bool) : (s.setSoundPulse b).hostOps = s.hostOps := rfl
@[simp] theorem State.setSoundPulse_reg (b : Bool) (q : Nibble) : (s.setSoundPulse b).reg q = s.reg q := rfl
@[simp] theorem State.setSoundPulse_slot (b : Bool) (q : Byte) : (s.setSoundPulse b).slot q = s.slot q := rfl
@[simp] theorem State.setSoundPulse_keyDown (b : Bool) (q : Nibble) : (s.setSoundPulse b).keyDown q = s.keyDown q := rfl
@[simp] theorem State.setSoundPulse_memRead (b : Bool) (q : Nat) : (s.setSoundPulse b).memRead q = s.memRead q := rfl
@[simp] theorem State.setSoundPulse_pixel (b : Bool) (p q : Nat) : (s.setSoundPulse b).pixel p q = s.pixel p q := rfl

/-! ### setPulses -/

@[simp] theorem State.setPulses_v (n : Nat) : (s.setPulses n).v = s.v := rfl
@[simp] theorem State.setPulses_i (n : Nat) : (s.setPulses n).i = s.i := rfl
@[simp] theorem State.setPulses_pc (n : Nat) : (s.setPulses n).pc = s.pc := rfl
@[simp] theorem State.setPulses_sp (n : Nat) : (s.setPulses n).sp = s.sp := rfl
@[simp] theorem State.setPulses_stack (n : Nat) : (s.setPulses n).stack = s.stack := rfl
@[simp] theorem State.setPulses_mem (n : Nat) : (s.setPulses n).mem = s.mem := rfl
@[simp] theorem State.setPulses_disp (n : Nat) : (s.setPulses n).disp = s.disp := rfl
@[simp] theorem State.setPulses_dt (n : Nat) : (s.setPulses n).dt = s.dt := rfl
@[simp] theorem State.setPulses_st (n : Nat) : (s.setPulses n).st = s.st := rfl
@[simp] theorem State.setPulses_key (n : Nat) : (s.setPulses n).key = s.key := rfl
@[simp] theorem State.setPulses_wait (n : Nat) : (s.setPulses n).wait = s.wait := rfl
@[simp] theorem State.setPulses_redraw (n : Nat) : (s.setPulses n).redraw = s.redraw := rfl
@[simp] theorem State.setPulses_soundPulse (n : Nat) : (s.setPulses n).soundPulse = s.soundPulse := rfl
@[simp] theorem State.setPulses_pulses (n : Nat) : (s.setPulses n).pulses = n := rfl
@[simp] theorem State.setPulses_draws (n : Nat) : (s.setPulses n).draws = s.draws := rfl
@[simp] theorem State.setPulses_hostOps (n : Nat) : (s.setPulses n).hostOps = s.hostOps := rfl
@[simp] theorem State.setPulses_reg (n : Nat) (q : Nibble) : (s.setPulses n).reg q = s.reg q := rfl
@[simp] theorem State.setPulses_slot (n : Nat) (q : Byte) : (s.setPulses n).slot q = s.slot q := rfl
@[simp] theorem State.setPulses_keyDown (n : Nat) (q : Nibble) : (s.setPulses n).keyDown q = s.keyDown q := rfl
@[simp] theorem State.setPulses_memRead (n : Nat) (q : Nat) : (s.setPulses n).memRead q = s.memRead q := rfl
@[simp] theorem State.setPulses_pixel (n : Nat) (p q : Nat) : (s.setPulses n).pixel p q = s.pixel p q := rfl

/-! ### setDraws -/

@[simp] theorem State.setDraws_v (n : Nat) : (s.setDraws n).v = s.v := rfl
@[simp] theorem State.setDraws_i (n : Nat) : (s.setDraws n).i = s.i := rfl
@[simp] theorem State.setDraws_pc (n : Nat) : (s.setDraws n).pc = s.pc := rfl
@[simp] theorem State.setDraws_sp (n : Nat) : (s.setDraws n).sp = s.sp := rfl
@[simp] theorem State.setDraws_stack (n : Nat) : (s.setDraws n).stack = s.stack := rfl
@[simp] theorem State.setDraws_mem (n : Nat) : (s.setDraws n).mem = s.mem := rfl
@[simp] theorem State.setDraws_disp (n : Nat) : (s.setDraws n).disp = s.disp := rfl
@[simp] theorem State.setDraws_dt (n : Nat) : (s.setDraws n).dt = s.dt := rfl
@[simp] theorem State.setDraws_st (n : Nat) : (s.setDraws n).st = s.st := rfl
@[simp] theorem State.setDraws_key (n : Nat) : (s.setDraws n).key = s.key := rfl
@[simp] theorem State.setDraws_wait (n : Nat) : (s.setDraws n).wait = s.wait := rfl
@[simp] theorem State.setDraws_redraw (n : Nat) : (s.setDraws n).redraw = s.redraw := rfl
@[simp] theorem State.setDraws_soundPulse (n : Nat) : (s.setDraws n).soundPulse = s.soundPulse := rfl
@[simp] theorem State.setDraws_pulses (n : Nat) : (s.setDraws n).pulses = s.pulses := rfl
@[simp] theorem State.setDraws_draws (n : Nat) : (s.setDraws n).draws = n := rfl
@[simp] theorem State.setDraws_hostOps (n : Nat) : (s.setDraws n).hostOps = s.hostOps := rfl
@[simp] theorem State.setDraws_reg (n : Nat) (q : Nibble) : (s.setDraws n).reg q = s.reg q := rfl
@[simp] theorem State.setDraws_slot (n : Nat) (q : Byte) : (s.setDraws n).slot q = s.slot q := rfl
@[simp] theorem State.setDraws_keyDown (n : Nat) (q : Nibble) : (s.setDraws n).keyDown q = s.keyDown q := rfl
@[simp] theorem State.setDraws_memRead (n : Nat) (q : Nat) : (s.setDraws n).memRead q = s.memRead q := rfl
@[simp] theorem State.setDraws_pixel (n : Nat) (p q : Nat) : (s.setDraws n).pixel p q = s.pixel p q := rfl

/-! ### setHostOps -/

@[simp] theorem State.setHostOps_v (ops : List HostOp) : (s.setHostOps ops).v = s.v := rfl
@[simp] theorem State.setHostOps_i (ops : List HostOp) : (s.setHostOps ops).i = s.i := rfl
@[simp] theorem State.setHostOps_pc (ops : List HostOp) : (s.setHostOps ops).pc = s.pc := rfl
@[simp] theorem State.setHostOps_sp (ops : List HostOp) : (s.setHostOps ops).sp = s.sp := rfl
@[simp] theorem State.setHostOps_stack (ops : List HostOp) : (s.setHostOps ops).stack = s.stack := rfl
@[simp] theorem State.setHostOps_mem (ops : List HostOp) : (s.setHostOps ops).mem = s.mem := rfl
@[simp] theorem State.setHostOps_disp (ops : List HostOp) : (s.setHostOps ops).disp = s.disp := rfl
@[simp] theorem State.setHostOps_dt (ops : List HostOp) : (s.setHostOps ops).dt = s.dt := rfl
@[simp] theorem State.setHostOps_st (ops : List HostOp) : (s.setHostOps ops).st = s.st := rfl
@[simp] theorem State.setHostOps_key (ops : List HostOp) : (s.setHostOps ops).key = s.key := rfl
@[simp] theorem State.setHostOps_wait (ops : List HostOp) : (s.setHostOps ops).wait = s.wait := rfl
@[simp] theorem State.setHostOps_redraw (ops : List HostOp) : (s.setHostOps ops).redraw = s.redraw := rfl
@[simp] theorem State.setHostOps_soundPulse (ops : List HostOp) : (s.setHostOps ops).soundPulse = s.soundPulse := rfl
@[simp] theorem State.setHostOps_pulses (ops : List HostOp) : (s.setHostOps ops).pulses = s.pulses := rfl
@[simp] theorem State.setHostOps_draws (ops : List HostOp) : (s.setHostOps ops).draws = s.draws := rfl
@[simp] theorem State.setHostOps_hostOps (ops : List HostOp) : (s.setHostOps ops).hostOps = ops := rfl
@[simp] theorem State.setHostOps_reg (ops : List HostOp) (q : Nibble) : (s.setHostOps ops).reg q = s.reg q := rfl
@[simp] theorem State.setHostOps_slot (ops : List HostOp) (q : Byte) : (s.setHostOps ops).slot q = s.slot q := rfl
@[simp] theorem State.setHostOps_keyDown (ops : List HostOp) (q : Nibble) : (s.setHostOps ops).keyDown q = s.keyDown q := rfl
@[simp] theorem State.setHostOps_memRead (ops : List HostOp) (q : Nat) : (s.setHostOps ops).memRead q = s.memRead q := rfl
@[simp] theorem State.setHostOps_pixel (ops : List HostOp) (p q : Nat) : (s.setHostOps ops).pixel p q = s.pixel p q := rfl

end Sys2Proof.Machine
end

