-- ==== Sys2Proof/Laws/Display.lean ====
section
/-! SUPPORT. The sprite loops of R181 in closed form: every pixel is toggled exactly where the sprite has a set bit on
the screen, and the collision flag says whether one of those pixels was lit. -/

namespace Sys2Proof.Machine

theorem Display.lit_inside {d : Display} {x y : Nat} (h : Display.lit d x y = true) : x < 64 ∧ y < 32 := by
  unfold Display.lit at h
  split at h
  · assumption
  · cases h

/-- A pixel after one toggle. -/
theorem Display.lit_toggle (d : Display) (x y p q : Nat) :
    Display.lit (Display.toggle d x y) p q =
      (Display.lit d p q ^^ decide (p = x ∧ q = y ∧ p < 64 ∧ q < 32)) := by
  by_cases hxy : x < 64 ∧ y < 32
  · by_cases hpq : p < 64 ∧ q < 32
    · simp only [Display.lit, Display.toggle, dif_pos hxy, hpq, and_true, Vector.getElem_set]
      by_cases hp : p = x
      · subst hp
        by_cases hq : q = y
        · subst hq; simp
        · simp [hq, Ne.symm hq]
      · simp [hp, Ne.symm hp]
    · have : decide (p = x ∧ q = y ∧ p < 64 ∧ q < 32) = false := by
        simp only [decide_eq_false_iff_not]; tauto
      rw [this]
      simp [Display.lit, hpq]
  · have : decide (p = x ∧ q = y ∧ p < 64 ∧ q < 32) = false := by
      simp only [decide_eq_false_iff_not]; rintro ⟨rfl, rfl, h⟩; exact hxy h
    rw [this]
    simp [Display.toggle, hxy]

/-- The first `n` columns of a sprite row, as `drawRow` goes through them. -/
def drawColumns (c : Display × Bool) (b : Byte) (x0 y n : Nat) : Display × Bool :=
  (List.range n).foldl (fun c col => if b.getLsbD (7 - col) then plot c (x0 + col) y else c) c

theorem drawColumns_succ (c : Display × Bool) (b : Byte) (x0 y n : Nat) :
    drawColumns c b x0 y (n + 1) =
      if b.getLsbD (7 - n) then plot (drawColumns c b x0 y n) (x0 + n) y else drawColumns c b x0 y n := by
  simp [drawColumns, List.range_succ]

theorem drawColumns_lit (c : Display × Bool) (b : Byte) (x0 y n p q : Nat) :
    Display.lit (drawColumns c b x0 y n).1 p q =
      (Display.lit c.1 p q ^^
        (decide (q = y ∧ x0 ≤ p ∧ p < x0 + n ∧ p < 64 ∧ q < 32) && b.getLsbD (7 - (p - x0)))) := by
  induction n with
  | zero =>
    have : decide (q = y ∧ x0 ≤ p ∧ p < x0 + 0 ∧ p < 64 ∧ q < 32) = false := by
      simp only [decide_eq_false_iff_not]; omega
    rw [this]; simp [drawColumns]
  | succ n ih =>
    rw [drawColumns_succ]
    by_cases hpn : p = x0 + n
    · subst hpn
      have h0 : decide (q = y ∧ x0 ≤ x0 + n ∧ x0 + n < x0 + n ∧ x0 + n < 64 ∧ q < 32) = false := by
        simp only [decide_eq_false_iff_not]; omega
      rw [h0] at ih
      simp only [Bool.false_and, Bool.xor_false] at ih
      split
      · next hb =>
        simp only [plot, Display.lit_toggle, ih]
        rw [Nat.add_sub_cancel_left, hb, Bool.and_true]
        congr 1
        rw [decide_eq_decide]
        constructor
        · rintro ⟨-, hq, h⟩; exact ⟨hq, by omega, by omega, h⟩
        · rintro ⟨hq, -, -, h⟩; exact ⟨trivial, hq, h⟩
      · next hb => simp [ih, hb]
    · have h1 : decide (p = x0 + n ∧ q = y ∧ p < 64 ∧ q < 32) = false := by simp [hpn]
      have h2 : decide (q = y ∧ x0 ≤ p ∧ p < x0 + (n + 1) ∧ p < 64 ∧ q < 32) =
          decide (q = y ∧ x0 ≤ p ∧ p < x0 + n ∧ p < 64 ∧ q < 32) := by
        simp only [decide_eq_decide]; omega
      rw [h2, ← ih]
      split
      · simp [plot, Display.lit_toggle, h1]
      · rfl

theorem drawColumns_collision (c : Display × Bool) (b : Byte) (x0 y n : Nat) :
    (drawColumns c b x0 y n).2 = true ↔
      c.2 = true ∨ ∃ p, x0 ≤ p ∧ p < x0 + n ∧ b.getLsbD (7 - (p - x0)) = true ∧ Display.lit c.1 p y = true := by
  induction n with
  | zero =>
    simp only [drawColumns, List.range_zero, List.foldl_nil, Nat.add_zero]
    constructor
    · exact .inl
    · rintro (h | ⟨p, h1, h2, -⟩)
      · exact h
      · omega
  | succ n ih =>
    rw [drawColumns_succ]
    have hlit : Display.lit (drawColumns c b x0 y n).1 (x0 + n) y = Display.lit c.1 (x0 + n) y := by
      rw [drawColumns_lit]; simp
    split
    · next hb =>
      simp only [plot, Bool.or_eq_true, ih, hlit]
      constructor
      · rintro ((h | ⟨p, h1, h2, h3⟩) | h)
        · exact .inl h
        · exact .inr ⟨p, h1, by omega, h3⟩
        · exact .inr ⟨x0 + n, by omega, by omega, by simpa using hb, h⟩
      · rintro (h | ⟨p, h1, h2, h3, h4⟩)
        · exact .inl (.inl h)
        · by_cases hp : p = x0 + n
          · exact .inr (hp ▸ h4)
          · exact .inl (.inr ⟨p, h1, by omega, h3, h4⟩)
    · next hb =>
      rw [ih]
      constructor
      · rintro (h | ⟨p, h1, h2, h3⟩)
        · exact .inl h
        · exact .inr ⟨p, h1, by omega, h3⟩
      · rintro (h | ⟨p, h1, h2, h3, h4⟩)
        · exact .inl h
        · by_cases hp : p = x0 + n
          · subst hp; simp at h3; exact absurd h3 hb
          · exact .inr ⟨p, h1, by omega, h3, h4⟩

/-- The bit that rows `bs` drawn at `(x0, y0)` have at column `p` and row `q`; false where the sprite does not reach. -/
def rowsBit (bs : List Byte) (x0 y0 p q : Nat) : Bool :=
  decide (x0 ≤ p ∧ p < x0 + 8 ∧ y0 ≤ q ∧ q < y0 + bs.length) && (bs.getD (q - y0) 0x00#8).getLsbD (7 - (p - x0))

theorem rowsBit_cons (b : Byte) (bs : List Byte) (x0 y0 p q : Nat) :
    rowsBit (b :: bs) x0 y0 p q =
      if q = y0 then decide (x0 ≤ p ∧ p < x0 + 8) && b.getLsbD (7 - (p - x0)) else rowsBit bs x0 (y0 + 1) p q := by
  unfold rowsBit
  by_cases hq : q = y0
  · subst hq; simp
  · by_cases hlt : y0 + 1 ≤ q
    · have h1 : q - y0 = (q - (y0 + 1)) + 1 := by omega
      simp only [hq, if_false, h1, List.getD_cons_succ]
      congr 1
      simp only [decide_eq_decide, List.length_cons]; omega
    · have h1 : decide (x0 ≤ p ∧ p < x0 + 8 ∧ y0 ≤ q ∧ q < y0 + (b :: bs).length) = false := by
        simp only [decide_eq_false_iff_not, List.length_cons]; omega
      have h2 : decide (x0 ≤ p ∧ p < x0 + 8 ∧ y0 + 1 ≤ q ∧ q < y0 + 1 + bs.length) = false := by
        simp only [decide_eq_false_iff_not]; omega
      rw [h1, h2]; simp [hq]

/-- A pixel after the rows of a sprite. -/
theorem drawRows_lit (c : Display × Bool) (bs : List Byte) (x0 y0 p q : Nat) :
    Display.lit (drawRows c x0 y0 bs).1 p q =
      (Display.lit c.1 p q ^^ (decide (p < 64 ∧ q < 32) && rowsBit bs x0 y0 p q)) := by
  induction bs generalizing c y0 with
  | nil =>
    have : rowsBit [] x0 y0 p q = false := by
      simp only [rowsBit, Bool.and_eq_false_imp, decide_eq_true_eq, List.length_nil]; omega
    simp [drawRows, this]
  | cons b bs ih =>
    show Display.lit (drawRows (drawColumns c b x0 y0 8) x0 (y0 + 1) bs).1 p q = _
    rw [ih, drawColumns_lit, rowsBit_cons, Bool.xor_assoc]
    congr 1
    by_cases hq : q = y0
    · have h0 : rowsBit bs x0 (y0 + 1) p q = false := by
        simp only [rowsBit, Bool.and_eq_false_imp, decide_eq_true_eq]; omega
      simp only [hq, if_true, true_and] at h0 ⊢
      rw [h0]
      simp only [Bool.and_false, Bool.xor_false]
      rw [← Bool.and_assoc]
      congr 1
      rw [← Bool.decide_and, decide_eq_decide]
      omega
    · simp [hq]

/-- Whether the rows of a sprite turned a lit pixel off. -/
theorem drawRows_collision (c : Display × Bool) (bs : List Byte) (x0 y0 : Nat) :
    (drawRows c x0 y0 bs).2 = true ↔
      c.2 = true ∨ ∃ p q, rowsBit bs x0 y0 p q = true ∧ Display.lit c.1 p q = true := by
  induction bs generalizing c y0 with
  | nil => simp [drawRows, rowsBit]
  | cons b bs ih =>
    show (drawRows (drawColumns c b x0 y0 8) x0 (y0 + 1) bs).2 = true ↔ _
    rw [ih, drawColumns_collision]
    have hlit : ∀ p q, rowsBit bs x0 (y0 + 1) p q = true →
        Display.lit (drawColumns c b x0 y0 8).1 p q = Display.lit c.1 p q := by
      intro p q h
      have : q ≠ y0 := by
        simp only [rowsBit, Bool.and_eq_true, decide_eq_true_eq] at h; omega
      rw [drawColumns_lit]; simp [this]
    constructor
    · rintro ((h | ⟨p, h1, h2, h3, h4⟩) | ⟨p, q, h1, h2⟩)
      · exact .inl h
      · refine .inr ⟨p, y0, ?_, h4⟩
        rw [rowsBit_cons]; simp [h1, h2, h3]
      · refine .inr ⟨p, q, ?_, by rwa [hlit p q h1] at h2⟩
        have hq : q ≠ y0 := by simp only [rowsBit, Bool.and_eq_true, decide_eq_true_eq] at h1; omega
        rw [rowsBit_cons, if_neg hq]; exact h1
    · rintro (h | ⟨p, q, h1, h2⟩)
      · exact .inl (.inl h)
      · rw [rowsBit_cons] at h1
        by_cases hq : q = y0
        · subst hq
          simp only [if_true, Bool.and_eq_true, decide_eq_true_eq] at h1
          exact .inl (.inr ⟨p, h1.1.1, h1.1.2, h1.2, h2⟩)
        · rw [if_neg hq] at h1
          exact .inr ⟨p, q, h1, by rwa [hlit p q h1]⟩

@[simp] theorem Memory.readBytes_length (m : Memory) (a n : Nat) : (Memory.readBytes m a n).length = n := by
  simp [Memory.readBytes]

theorem Memory.readBytes_getD (m : Memory) (a n k : Nat) (h : k < n) :
    (Memory.readBytes m a n).getD k 0x00#8 = Memory.read m (a + k) := by
  simp [Memory.readBytes, List.getD, h]

/-- A cleared display has no lit pixel (R180). -/
@[simp] theorem Display.lit_clear (x y : Nat) : Display.lit Display.clear x y = false := by
  unfold Display.lit
  split
  · simp [Display.clear]
  · rfl

end Sys2Proof.Machine
end

