-- ==== Sys2Proof/Laws/Memory.lean ====
section
/-! SUPPORT. Memory: what a read gives after a write, that every operation keeps the canonical form, and that it is
canonical (equal reads, equal lists). -/

namespace Sys2Proof.Machine

theorem Memory.find_place (m : Memory) (a b : Nat) (v : Byte) (h : Memory.find m a = none) :
    Memory.find (Memory.place m a v) b = if b = a then some v else Memory.find m b := by
  induction m with
  | nil => simp [Memory.place, Memory.find, eq_comm]
  | cons c m ih =>
    obtain ⟨c, u⟩ := c
    have hca : c ≠ a := by rintro rfl; simp [Memory.find] at h
    have hm : Memory.find m a = none := by simpa [Memory.find, hca] using h
    by_cases hlt : c < a
    · simp only [Memory.place, hlt, if_true, Memory.find, ih hm]
      by_cases hcb : c = b
      · have hba : b ≠ a := hcb ▸ hca
        simp [hcb, hba]
      · simp [hcb]
    · simp only [Memory.place, hlt, if_false, Memory.find]
      by_cases hab : a = b
      · simp [hab]
      · simp [hab, Ne.symm hab]

theorem Memory.find_filter (m : Memory) (a b : Nat) :
    Memory.find (m.filter fun c => c.1 != a) b = if b = a then none else Memory.find m b := by
  induction m with
  | nil => simp [Memory.find]
  | cons c m ih =>
    obtain ⟨c, u⟩ := c
    by_cases hc : c = a
    · subst hc
      simp only [bne_self_eq_false, Bool.false_eq_true, not_false_eq_true, List.filter_cons_of_neg, ih,
        Memory.find]
      split <;> simp_all [eq_comm]
    · rw [List.filter_cons_of_pos (by simpa using hc)]
      simp only [Memory.find, ih]
      split <;> split <;> simp_all

/-- A byte read after a byte write (R54, R55): the written byte at a written address below 4096, else what was there. -/
theorem Memory.read_write (m : Memory) (a b : Nat) (v : Byte) :
    Memory.read (Memory.write m a v) b = if b = a ∧ a < 4096 then v else Memory.read m b := by
  unfold Memory.write
  by_cases ha : a < 4096
  · simp only [ha, if_true, and_true]
    by_cases hv : v = unlistedByte a
    · simp only [hv, if_true, Memory.read, Memory.find_filter]
      by_cases hb : b = a
      · subst hb; simp [ha]
      · simp [hb]
    · simp only [hv, if_false, Memory.read]
      rw [Memory.find_place _ _ _ _ (by simp [Memory.find_filter]), Memory.find_filter]
      by_cases hb : b = a
      · subst hb; simp [ha]
      · simp [hb]
  · simp [ha]

/-- A read above 4095 gives 0x00 (R54). -/
@[simp] theorem Memory.read_outside (m : Memory) (a : Nat) (h : 4096 ≤ a) : Memory.read m a = 0x00#8 := by
  simp [Memory.read, Nat.not_lt.mpr h]

/-- A byte read after a multi-byte store: the byte of the store that went to that address, or what was there (R55). -/
theorem Memory.read_writeBytes (m : Memory) (a b : Nat) (bs : List Byte) :
    Memory.read (Memory.writeBytes m a bs) b =
      if a ≤ b ∧ b < a + bs.length ∧ b < 4096 then bs.getD (b - a) 0x00#8 else Memory.read m b := by
  induction bs generalizing m a with
  | nil =>
    have : ¬ (a ≤ b ∧ b < a + ([] : List Byte).length ∧ b < 4096) := by simp; omega
    rw [if_neg this]; rfl
  | cons x bs ih =>
    simp only [Memory.writeBytes, ih, Memory.read_write, List.length_cons]
    by_cases hab : b = a
    · subst hab
      by_cases hb : b < 4096 <;> simp [hb]
    · by_cases hle : a + 1 ≤ b
      · have h1 : b - a = (b - (a + 1)) + 1 := by omega
        have h2 : (a ≤ b ∧ b < a + (bs.length + 1) ∧ b < 4096) ↔
            (a + 1 ≤ b ∧ b < a + 1 + bs.length ∧ b < 4096) := by omega
        simp only [h2, h1, List.getD_cons_succ, hab, false_and, if_false]
      · have h1 : ¬ (a + 1 ≤ b ∧ b < a + 1 + bs.length ∧ b < 4096) := by omega
        have h2 : ¬ (a ≤ b ∧ b < a + (bs.length + 1) ∧ b < 4096) := by omega
        rw [if_neg h1, if_neg h2, if_neg (by simp [hab])]

/-- A byte of the machine's memory after a multi-byte store. -/
theorem State.memRead_store (s : State) (a b : Nat) (bs : List Byte) :
    (s.store a bs).memRead b =
      if a ≤ b ∧ b < a + bs.length ∧ b < 4096 then bs.getD (b - a) 0x00#8 else s.memRead b :=
  Memory.read_writeBytes s.mem a b bs

/-! ### The canonical form -/

theorem Memory.mem_place {m : Memory} {a : Nat} {v : Byte} {c : Host.Cell} (h : c ∈ Memory.place m a v) :
    c = (a, v) ∨ c ∈ m := by
  induction m with
  | nil => simpa [Memory.place] using h
  | cons d m ih =>
    obtain ⟨d, u⟩ := d
    simp only [Memory.place] at h
    split at h
    · rcases List.mem_cons.mp h with rfl | h
      · exact .inr (List.mem_cons_self ..)
      · exact (ih h).imp_right (List.mem_cons_of_mem _)
    · simpa using h

theorem Memory.pairwise_place {m : Memory} {a : Nat} {v : Byte} (h : m.Pairwise (fun c d => c.1 < d.1))
    (ha : ∀ c ∈ m, c.1 ≠ a) : (Memory.place m a v).Pairwise (fun c d => c.1 < d.1) := by
  induction m with
  | nil => simp [Memory.place]
  | cons d m ih =>
    obtain ⟨d, u⟩ := d
    obtain ⟨hd, hm⟩ := List.pairwise_cons.mp h
    have hda : d ≠ a := ha _ (List.mem_cons_self ..)
    simp only [Memory.place]
    split
    · next hlt =>
      refine List.pairwise_cons.mpr ⟨fun c hc => ?_, ih hm fun c hc => ha c (List.mem_cons_of_mem _ hc)⟩
      rcases Memory.mem_place hc with rfl | hc
      · exact hlt
      · exact hd c hc
    · next hlt =>
      refine List.pairwise_cons.mpr ⟨fun c hc => ?_, h⟩
      rcases List.mem_cons.mp hc with rfl | hc
      · show a < d; omega
      · have hdc : d < c.1 := hd c hc
        show a < c.1; omega

/-- A byte write keeps the canonical form. -/
theorem Memory.write_wf {m : Memory} (h : Memory.wf m) (a : Nat) (v : Byte) : Memory.wf (Memory.write m a v) := by
  have hf : Memory.wf (m.filter fun c => c.1 != a) :=
    ⟨h.1.filter _, fun c hc => h.2 c (List.mem_filter.mp hc).1⟩
  unfold Memory.write
  split
  · next ha =>
    simp only
    split
    · exact hf
    · next hv =>
      refine ⟨Memory.pairwise_place hf.1 fun c hc => by simpa using (List.mem_filter.mp hc).2, fun c hc => ?_⟩
      rcases Memory.mem_place hc with rfl | hc
      · exact ⟨ha, hv⟩
      · exact hf.2 c hc
  · exact h

/-- A multi-byte store keeps the canonical form. -/
theorem Memory.writeBytes_wf {m : Memory} (h : Memory.wf m) (a : Nat) (bs : List Byte) :
    Memory.wf (Memory.writeBytes m a bs) := by
  induction bs generalizing m a with
  | nil => exact h
  | cons b bs ih => exact ih (Memory.write_wf h a b) (a + 1)

theorem Memory.find_eq_some_of_mem {m : Memory} (h : m.Pairwise (fun c d => c.1 < d.1)) {c : Host.Cell} (hc : c ∈ m) :
    Memory.find m c.1 = some c.2 := by
  induction m with
  | nil => simp at hc
  | cons d m ih =>
    obtain ⟨hd, hm⟩ := List.pairwise_cons.mp h
    rcases List.mem_cons.mp hc with rfl | hc
    · simp [Memory.find]
    · have : d.1 ≠ c.1 := Nat.ne_of_lt (hd c hc)
      simp [Memory.find, this, ih hm hc]

theorem Memory.mem_of_find {m : Memory} {a : Nat} {v : Byte} (h : Memory.find m a = some v) : (a, v) ∈ m := by
  induction m with
  | nil => simp [Memory.find] at h
  | cons d m ih =>
    obtain ⟨d, u⟩ := d
    simp only [Memory.find] at h
    split at h
    · next hd => subst hd; cases h; exact List.mem_cons_self ..
    · exact List.mem_cons_of_mem _ (ih h)

/-- The form is canonical: two memories in it that read alike at every address are the same list. -/
theorem Memory.eq_of_read_eq {m n : Memory} (hm : Memory.wf m) (hn : Memory.wf n)
    (h : ∀ a, Memory.read m a = Memory.read n a) : m = n := by
  have key : ∀ {m n : Memory}, Memory.wf m → Memory.wf n → (∀ a, Memory.read m a = Memory.read n a) →
      ∀ c ∈ m, c ∈ n := by
    intro m n hm hn h c hc
    obtain ⟨hlt, hne⟩ := hm.2 c hc
    have hr := h c.1
    simp only [Memory.read, hlt, if_true, Memory.find_eq_some_of_mem hm.1 hc, Option.getD_some] at hr
    cases hf : Memory.find n c.1 with
    | none => rw [hf] at hr; exact absurd hr hne
    | some v =>
      rw [hf] at hr
      have := Memory.mem_of_find hf
      rw [Option.getD_some] at hr
      rw [← hr] at this
      exact this
  have irr : ∀ c d : Host.Cell, c ∈ m → d ∈ n → c.1 < d.1 → d.1 < c.1 → c = d := fun c d _ _ h1 h2 =>
    absurd h1 (Nat.lt_asymm h2)
  have nodup : ∀ {m : Memory}, m.Pairwise (fun c d => c.1 < d.1) → m.Nodup := fun h =>
    h.imp fun {c d} hcd e => by subst e; exact Nat.lt_irrefl _ hcd
  have perm : m.Perm n := (List.perm_ext_iff_of_nodup (nodup hm.1) (nodup hn.1)).mpr fun c =>
    ⟨key hm hn h c, key hn hm (fun a => (h a).symm) c⟩
  exact perm.eq_of_pairwise irr hm.1 hn.1

end Sys2Proof.Machine
end

