-- ==== Sys2Proof/Laws/Registers.lean ====
section
/-! SUPPORT. Register, stack slot and key flag reads after writes; the composite operations as the updates they are made
of; the register block and the arithmetic of 42_alu.md in natural numbers. -/

namespace Sys2Proof.Machine

/-! ### Reads after writes -/

theorem State.reg_setReg (s : State) (r q : Nibble) (b : Byte) :
    (s.setReg r b).reg q = if q = r then b else s.reg q := by
  simp only [State.reg, State.setReg, Vector.getElem_set, ← BitVec.toNat_inj, eq_comm]

@[simp] theorem State.reg_setReg_same (s : State) (r : Nibble) (b : Byte) : (s.setReg r b).reg r = b := by
  simp [State.reg_setReg]

@[simp] theorem State.reg_setReg_ne (s : State) {r q : Nibble} (h : q ≠ r) (b : Byte) :
    (s.setReg r b).reg q = s.reg q := by simp [State.reg_setReg, h]

theorem State.keyDown_setKey (s : State) (k q : Nibble) (b : Bool) :
    (s.setKey k b).keyDown q = if q = k then b else s.keyDown q := by
  simp only [State.keyDown, State.setKey, Vector.getElem_set, ← BitVec.toNat_inj, eq_comm]

@[simp] theorem State.keyDown_setKey_same (s : State) (k : Nibble) (b : Bool) : (s.setKey k b).keyDown k = b := by
  simp [State.keyDown_setKey]

theorem State.slot_setSlot (s : State) (j q : Byte) (w : Word) :
    (s.setSlot j w).slot q = if q.toNat % 16 = j.toNat % 16 then w else s.slot q := by
  simp only [State.slot, State.setSlot, Vector.getElem_set, eq_comm]

@[simp] theorem State.slot_setSlot_same (s : State) (j : Byte) (w : Word) : (s.setSlot j w).slot j = w := by
  simp [State.slot_setSlot]

/-- Two states with the same sixteen registers, said of each register. -/
theorem State.v_eq_of_reg_eq {s t : State} (h : ∀ r, t.reg r = s.reg r) : t.v = s.v := by
  apply Vector.ext
  intro j hj
  have := h (BitVec.ofNat 4 j)
  simpa [State.reg, Nat.mod_eq_of_lt hj] using this

/-! ### Composite operations -/

@[simp] theorem State.advance_eq (s : State) : s.advance = s.setPc (s.pc + 2#16) := rfl

@[simp] theorem State.skipIf_eq (s : State) (c : Bool) :
    s.skipIf c = s.setPc (if c then s.pc + 4#16 else s.pc + 2#16) := rfl

@[simp] theorem State.tick_eq (s : State) :
    s.tick = ((s.pulse (s.st == 1#8)).setSt (countDown s.st)).setDt (countDown s.dt) := rfl

@[simp] theorem State.pulse_eq (s : State) (b : Bool) :
    s.pulse b = (s.setSoundPulse b).setPulses (if b then s.pulses + 1 else s.pulses) := rfl

@[simp] theorem State.noPulse_eq (s : State) : s.noPulse = s.setSoundPulse false := rfl

@[simp] theorem State.setFlag_eq (s : State) (f : Bool) : s.setFlag f = s.setReg flagReg (flagByte f) := rfl

@[simp] theorem State.setResultAndFlag_eq (s : State) (x : Nibble) (b : Byte) (f : Bool) :
    s.setResultAndFlag x b f = (s.setReg x b).setReg flagReg (flagByte f) := rfl

@[simp] theorem State.drawn_eq (s : State) : s.drawn = s.setDraws (s.draws + 1) := rfl

/-- A timer count as a number: one less, and zero stays zero (R113). -/
theorem countDown_toNat (b : Byte) : (countDown b).toNat = b.toNat - 1 := by
  unfold countDown
  split
  · next h => simp [h]
  · next h => have : b.toNat ≠ 0 := fun e => h (BitVec.eq_of_toNat_eq (by simpa using e)); bv_omega

theorem pc_add_two (w : Word) : (w + 2#16).toNat = (w.toNat + 2) % 65536 := by simp [BitVec.toNat_add]

theorem pc_add_four (w : Word) : (w + 4#16).toNat = (w.toNat + 4) % 65536 := by simp [BitVec.toNat_add]

theorem spUp_toNat (b : Byte) : (spUp b).toNat = (b.toNat + 1) % 16 := by simp [spUp]; omega

theorem spDown_toNat (b : Byte) : (spDown b).toNat = (b.toNat + 15) % 16 := by simp [spDown]; omega

/-! ### The register block -/

theorem State.regBlock_length (s : State) (x : Nibble) : (s.regBlock x).length = x.toNat + 1 := by
  have := x.isLt
  simp [State.regBlock]; omega

/-- The `k`-th byte of the block is `V[k]` (R204). -/
theorem State.regBlock_getD (s : State) (x k : Nibble) (h : k.toNat ≤ x.toNat) :
    (s.regBlock x).getD k.toNat 0x00#8 = s.reg k := by
  have hk : k.toNat < 16 := k.isLt
  have : k.toNat < x.toNat + 1 := by omega
  simp [State.regBlock, State.reg, List.getD, this, hk]

/-- A register after a block write (R205). -/
theorem State.reg_setRegBlock (s : State) (x q : Nibble) (f : Nat → Byte) :
    (s.setRegBlock x f).reg q = if q.toNat ≤ x.toNat then f q.toNat else s.reg q := by
  simp [State.setRegBlock, State.reg, State.setRegs]

/-! ### Arithmetic in natural numbers (R150, R162) -/

theorem addResult_toNat (a b : Byte) : (addResult a b).toNat = (a.toNat + b.toNat) % 256 := by simp [addResult]

theorem subResult_toNat (a b : Byte) : ((subResult a b).toNat : Int) = ((a.toNat : Int) - b.toNat) % 256 := by
  have := a.isLt; have := b.isLt
  simp [subResult]; omega

theorem shrResult_toNat (a : Byte) : (shrResult a).toNat = a.toNat / 2 := by
  have := a.isLt
  simp [shrResult]; omega

theorem shlResult_toNat (a : Byte) : (shlResult a).toNat = a.toNat * 2 % 256 := by simp [shlResult]

theorem addFlag_eq (a b : Byte) : addFlag a b = decide (a.toNat + b.toNat > 255) := rfl
theorem subFlag_eq (a b : Byte) : subFlag a b = decide (a.toNat > b.toNat) := rfl
theorem flagByte_toNat (b : Bool) : (flagByte b).toNat = if b then 1 else 0 := by cases b <;> rfl

end Sys2Proof.Machine
end

