-- ==== Sys2Proof/Laws/Cycle.lean ====
section
/-! SUPPORT. What a step can do, said once: the cases of a step, of a cycle and of a word's execution; the frame of a
host operation; sprites in the terms of claims. -/

namespace Sys2Proof.Machine

/-- The cases of one step. -/
theorem step_cases {s : State} {o : Host.Outcome State Fault Refusal} (h : step s = o) :
    (s.hostOps = [] ∧ o = cycle s) ∨ ∃ op rest, s.hostOps = op :: rest ∧ o = hostStep op (s.setHostOps rest) := by
  subst h
  unfold step nextStep
  split
  · next h => exact .inl ⟨h, rfl⟩
  · next op rest h => exact .inr ⟨op, rest, h, rfl⟩

/-- The cases of one cycle (R110, R114, R115): blocked, or it executes what the word at `PC` decodes to. -/
theorem cycle_cases (s : State) :
    (∃ r, s.wait = some r ∧ cycle s = .next s.tick) ∨ ∃ i, s.executes i ∧ cycle s = exec i s.tick := by
  cases hw : s.wait with
  | some r => exact .inl ⟨r, rfl, by simp only [cycle, hw]⟩
  | none => exact .inr ⟨_, ⟨hw, rfl⟩, by simp only [cycle, hw, execWord]⟩

/-- One more step of a run, when the first step answers a next state. -/
theorem run_succ (M : Host.Core) {s t : M.State} (n : Nat) (h : M.step s = .next t) :
    M.run (n + 1) s = M.run n t := by
  simp only [Host.Core.run, h]

theorem core_run_succ {s t : State} (n : Nat) (h : step s = .next t) :
    Sys2Proof.core.run (n + 1) s = Sys2Proof.core.run n t := run_succ Sys2Proof.core n h

/-- A cycle that executes an instruction. -/
theorem cycle_executes {s : State} {i : Instr} (h : s.executes i) : cycle s = exec i s.tick := by
  simp only [cycle, h.1, execWord, h.2]

/-- A blocked cycle (R114). -/
theorem cycle_blocked {s : State} {r : Nibble} (h : s.wait = some r) : cycle s = .next s.tick := by
  simp only [cycle, h]

/-- The tick writes the two timers and the pulse, counts the pulse, and does nothing else (R113). -/
theorem tick_sameBut (s : State) : sameBut [.delayTimer, .soundTimer, .pulse, .pulseCount] s s.tick := by
  intro p hp
  cases p <;> simp_all [Part.same]

theorem sameBut.refl (changed : List Part) (s : State) : sameBut changed s s := by
  intro p _
  cases p <;> simp [Part.same]

/-- The fetched word as a number (R52, R54). -/
theorem fetchWord_toNat (s : State) :
    s.fetchWord.toNat = (s.memRead s.pc.toNat).toNat * 256 + (s.memRead (s.pc.toNat + 1)).toNat := by
  have := (s.memRead (s.pc.toNat + 1)).isLt
  simp only [State.fetchWord, wordOfBytes, BitVec.toNat_append]
  rw [← Nat.shiftLeft_add_eq_or_of_lt this, Nat.shiftLeft_eq]

/-- The tick changes nothing a fetch reads (R111). -/
@[simp] theorem fetchWord_tick (s : State) : s.tick.fetchWord = s.fetchWord := rfl

/-- The rows `DRW` reads have the sprite's bits (R181). -/
theorem rowsBit_readBytes (s : State) (x y n : Nibble) (p q : Nat) :
    rowsBit (Memory.readBytes s.mem s.base n.toNat) (s.reg x).toNat (s.reg y).toNat p q = s.spriteBit x y n p q := by
  unfold rowsBit State.spriteBit
  rw [Memory.readBytes_length]
  by_cases h : (s.reg x).toNat ≤ p ∧ p < (s.reg x).toNat + 8 ∧ (s.reg y).toNat ≤ q ∧ q < (s.reg y).toNat + n.toNat
  · rw [Memory.readBytes_getD _ _ _ _ (by omega)]; rfl
  · simp [h]

/-- A pixel after a sprite is drawn: toggled where the sprite has a set bit on the screen (R181). -/
theorem drawSprite_lit (s : State) (x y n : Nibble) (p q : Nat) :
    Display.lit (s.drawSprite x y n).1 p q =
      (s.pixel p q ^^ (decide (p < 64 ∧ q < 32) && s.spriteBit x y n p q)) := by
  rw [State.drawSprite, drawRows_lit, rowsBit_readBytes]; rfl

/-- The collision flag of a sprite: some set bit of it falls on a lit pixel (R181). -/
theorem drawSprite_collision (s : State) (x y n : Nibble) :
    (s.drawSprite x y n).2 = true ↔ ∃ p q, s.spriteBit x y n p q = true ∧ s.pixel p q = true := by
  simp only [State.drawSprite, drawRows_collision, rowsBit_readBytes, Bool.false_eq_true, false_or]
  rfl

end Sys2Proof.Machine
end

