-- ==== Sys2Proof/Laws/Decode.lean ====
section
/-! SUPPORT. The fields of a word and the words of the three encoding forms, as natural numbers (R81, R82). -/

namespace Sys2Proof

theorem fieldF_toNat (w : Word) : (fieldF w).toNat = w.toNat / 4096 := by
  have := w.isLt
  simp [fieldF, Nat.shiftRight_eq_div_pow]; omega

theorem fieldX_toNat (w : Word) : (fieldX w).toNat = w.toNat / 256 % 16 := by
  simp [fieldX, Nat.shiftRight_eq_div_pow]

theorem fieldY_toNat (w : Word) : (fieldY w).toNat = w.toNat / 16 % 16 := by
  simp [fieldY, Nat.shiftRight_eq_div_pow]

theorem fieldN_toNat (w : Word) : (fieldN w).toNat = w.toNat % 16 := by
  simp [fieldN]

theorem fieldKK_toNat (w : Word) : (fieldKK w).toNat = w.toNat % 256 := by
  simp [fieldKK]

theorem fieldNNN_toNat (w : Word) : (fieldNNN w).toNat = w.toNat % 4096 := by
  simp [fieldNNN]

theorem encodeA_toNat (f : Nibble) (nnn : Addr) : (encodeA f nnn).toNat = f.toNat * 4096 + nnn.toNat := by
  simp only [encodeA, BitVec.toNat_append]
  rw [← Nat.shiftLeft_add_eq_or_of_lt nnn.isLt, Nat.shiftLeft_eq]

theorem encodeXK_toNat (f x : Nibble) (kk : Byte) :
    (encodeXK f x kk).toNat = f.toNat * 4096 + x.toNat * 256 + kk.toNat := by
  simp only [encodeXK, BitVec.toNat_append]
  rw [← Nat.shiftLeft_add_eq_or_of_lt kk.isLt, Nat.shiftLeft_eq, ← Nat.shiftLeft_add_eq_or_of_lt x.isLt,
    Nat.shiftLeft_eq]
  omega

theorem encodeXYN_toNat (f x y n : Nibble) :
    (encodeXYN f x y n).toNat = f.toNat * 4096 + x.toNat * 256 + y.toNat * 16 + n.toNat := by
  simp only [encodeXYN, BitVec.toNat_append]
  rw [← Nat.shiftLeft_add_eq_or_of_lt n.isLt, Nat.shiftLeft_eq, ← Nat.shiftLeft_add_eq_or_of_lt y.isLt,
    Nat.shiftLeft_eq, ← Nat.shiftLeft_add_eq_or_of_lt x.isLt, Nat.shiftLeft_eq]
  omega

/-- The fields of the word of format A. -/
theorem fields_encodeA (f : Nibble) (nnn : Addr) : fieldF (encodeA f nnn) = f ∧ fieldNNN (encodeA f nnn) = nnn := by
  have := f.isLt; have := nnn.isLt
  constructor <;> apply BitVec.eq_of_toNat_eq <;> simp only [fieldF_toNat, fieldNNN_toNat, encodeA_toNat] <;> omega

/-- The fields of the word of formats XK and XS. -/
theorem fields_encodeXK (f x : Nibble) (kk : Byte) :
    fieldF (encodeXK f x kk) = f ∧ fieldX (encodeXK f x kk) = x ∧ fieldKK (encodeXK f x kk) = kk := by
  have := f.isLt; have := x.isLt; have := kk.isLt
  refine ⟨?_, ?_, ?_⟩ <;> apply BitVec.eq_of_toNat_eq <;>
    simp only [fieldF_toNat, fieldX_toNat, fieldKK_toNat, encodeXK_toNat] <;> omega

/-- The fields of the word of formats XY, XYS and XYN. -/
theorem fields_encodeXYN (f x y n : Nibble) :
    fieldF (encodeXYN f x y n) = f ∧ fieldX (encodeXYN f x y n) = x ∧ fieldY (encodeXYN f x y n) = y ∧
      fieldN (encodeXYN f x y n) = n := by
  have := f.isLt; have := x.isLt; have := y.isLt; have := n.isLt
  refine ⟨?_, ?_, ?_, ?_⟩ <;> apply BitVec.eq_of_toNat_eq <;>
    simp only [fieldF_toNat, fieldX_toNat, fieldY_toNat, fieldN_toNat, encodeXYN_toNat] <;> omega

end Sys2Proof
end

