-- ==== Sys2Proof/Laws/PerInstr.lean ====
section
/-! SUPPORT. Statements made per instruction. OpcodeMap: the encoded word of an instruction selects its own row of the
opcode map (R90), that is, `encode i AND mask = match`. -/

namespace Sys2Proof.Laws.OpcodeMap

/-- The encoded word of `i` selects the row of `i` in the opcode map (R90). -/
def Statement (i : Instr) : Prop := encode i &&& (opcodeRow i).2 = (opcodeRow i).1

theorem nibble_and_ones : ∀ f : Nibble, f &&& 15#4 = f := by decide

theorem byte_and_ones (b : Byte) : b &&& 255#8 = b := BitVec.and_allOnes

theorem encodeA_and (f : Nibble) (nnn : Addr) : encodeA f nnn &&& 0xF000#16 = f ++ 0x000#12 := by
  rw [encodeA, show (0xF000#16 : Word) = 0xF#4 ++ 0x000#12 by decide, BitVec.and_append]
  simp [nibble_and_ones]

theorem encodeXK_and_family (f x : Nibble) (kk : Byte) :
    encodeXK f x kk &&& 0xF000#16 = f ++ 0x0#4 ++ 0x00#8 := by
  rw [encodeXK, show (0xF000#16 : Word) = 0xF#4 ++ 0x0#4 ++ 0x00#8 by decide, BitVec.and_append, BitVec.and_append]
  simp [nibble_and_ones]

theorem encodeXK_and_selector (f x : Nibble) (kk : Byte) : encodeXK f x kk &&& 0xF0FF#16 = f ++ 0x0#4 ++ kk := by
  rw [encodeXK, show (0xF0FF#16 : Word) = 0xF#4 ++ 0x0#4 ++ 0xFF#8 by decide, BitVec.and_append, BitVec.and_append]
  simp [nibble_and_ones, byte_and_ones]

theorem encodeXYN_and_family (f x y n : Nibble) :
    encodeXYN f x y n &&& 0xF000#16 = f ++ 0x0#4 ++ 0x0#4 ++ 0x0#4 := by
  rw [encodeXYN, show (0xF000#16 : Word) = 0xF#4 ++ 0x0#4 ++ 0x0#4 ++ 0x0#4 by decide, BitVec.and_append,
    BitVec.and_append, BitVec.and_append]
  simp [nibble_and_ones]

theorem encodeXYN_and_selector (f x y n : Nibble) :
    encodeXYN f x y n &&& 0xF00F#16 = f ++ 0x0#4 ++ 0x0#4 ++ n := by
  rw [encodeXYN, show (0xF00F#16 : Word) = 0xF#4 ++ 0x0#4 ++ 0x0#4 ++ 0xF#4 by decide, BitVec.and_append,
    BitVec.and_append, BitVec.and_append]
  simp [nibble_and_ones]

theorem cls : Statement .cls := by
  unfold Statement; decide

theorem ret : Statement .ret := by
  unfold Statement; decide

theorem unrecognized : Statement .unrecognized := by
  unfold Statement; decide

theorem jp (nnn : Addr) : Statement (.jp nnn) :=
  encodeA_and 0x1#4 nnn

theorem call (nnn : Addr) : Statement (.call nnn) :=
  encodeA_and 0x2#4 nnn

theorem seImm (x : Nibble) (kk : Byte) : Statement (.seImm x kk) :=
  encodeXK_and_family 0x3#4 x kk

theorem sneImm (x : Nibble) (kk : Byte) : Statement (.sneImm x kk) :=
  encodeXK_and_family 0x4#4 x kk

theorem seReg (x y : Nibble) : Statement (.seReg x y) :=
  encodeXYN_and_family 0x5#4 x y 0x0#4

theorem ldImm (x : Nibble) (kk : Byte) : Statement (.ldImm x kk) :=
  encodeXK_and_family 0x6#4 x kk

theorem addImm (x : Nibble) (kk : Byte) : Statement (.addImm x kk) :=
  encodeXK_and_family 0x7#4 x kk

theorem ldReg (x y : Nibble) : Statement (.ldReg x y) :=
  encodeXYN_and_selector 0x8#4 x y 0x0#4

theorem orReg (x y : Nibble) : Statement (.orReg x y) :=
  encodeXYN_and_selector 0x8#4 x y 0x1#4

theorem andReg (x y : Nibble) : Statement (.andReg x y) :=
  encodeXYN_and_selector 0x8#4 x y 0x2#4

theorem xorReg (x y : Nibble) : Statement (.xorReg x y) :=
  encodeXYN_and_selector 0x8#4 x y 0x3#4

theorem addReg (x y : Nibble) : Statement (.addReg x y) :=
  encodeXYN_and_selector 0x8#4 x y 0x4#4

theorem sub (x y : Nibble) : Statement (.sub x y) :=
  encodeXYN_and_selector 0x8#4 x y 0x5#4

theorem shr (x y : Nibble) : Statement (.shr x y) :=
  encodeXYN_and_selector 0x8#4 x y 0x6#4

theorem subn (x y : Nibble) : Statement (.subn x y) :=
  encodeXYN_and_selector 0x8#4 x y 0x7#4

theorem shl (x y : Nibble) : Statement (.shl x y) :=
  encodeXYN_and_selector 0x8#4 x y 0xE#4

theorem sneReg (x y : Nibble) : Statement (.sneReg x y) :=
  encodeXYN_and_family 0x9#4 x y 0x0#4

theorem ldI (nnn : Addr) : Statement (.ldI nnn) :=
  encodeA_and 0xA#4 nnn

theorem jpV0 (nnn : Addr) : Statement (.jpV0 nnn) :=
  encodeA_and 0xB#4 nnn

theorem rnd (x : Nibble) (kk : Byte) : Statement (.rnd x kk) :=
  encodeXK_and_family 0xC#4 x kk

theorem drw (x y n : Nibble) : Statement (.drw x y n) :=
  encodeXYN_and_family 0xD#4 x y n

theorem skp (x : Nibble) : Statement (.skp x) :=
  encodeXK_and_selector 0xE#4 x 0x9E#8

theorem sknp (x : Nibble) : Statement (.sknp x) :=
  encodeXK_and_selector 0xE#4 x 0xA1#8

theorem ldVxDt (x : Nibble) : Statement (.ldVxDt x) :=
  encodeXK_and_selector 0xF#4 x 0x07#8

theorem ldVxK (x : Nibble) : Statement (.ldVxK x) :=
  encodeXK_and_selector 0xF#4 x 0x0A#8

theorem ldDtVx (x : Nibble) : Statement (.ldDtVx x) :=
  encodeXK_and_selector 0xF#4 x 0x15#8

theorem ldStVx (x : Nibble) : Statement (.ldStVx x) :=
  encodeXK_and_selector 0xF#4 x 0x18#8

theorem addI (x : Nibble) : Statement (.addI x) :=
  encodeXK_and_selector 0xF#4 x 0x1E#8

theorem ldF (x : Nibble) : Statement (.ldF x) :=
  encodeXK_and_selector 0xF#4 x 0x29#8

theorem ldB (x : Nibble) : Statement (.ldB x) :=
  encodeXK_and_selector 0xF#4 x 0x33#8

theorem storeRegs (x : Nibble) : Statement (.storeRegs x) :=
  encodeXK_and_selector 0xF#4 x 0x55#8

theorem loadRegs (x : Nibble) : Statement (.loadRegs x) :=
  encodeXK_and_selector 0xF#4 x 0x65#8

end Sys2Proof.Laws.OpcodeMap
end

