-- ==== Sys2Proof/Tests/Slice0.lean ====
section
/-! SUPPORT. The model's own tests: words written out from the opcode map, single steps with results from
spec/95_test_vectors.md (named in each comment), and witnesses that the hypotheses of the statements can be met. -/

namespace Sys2Proof.Tests

open Sys2Proof.Machine

/-! ### Well-formedness -/

theorem test_wellFormed_refuses_unrecognized : Instr.unrecognized.wellFormed = false := by decide
theorem test_wellFormed_admits_every_register : (Instr.drw 15#4 15#4 0#4).wellFormed = true := by decide

/-! ### Decoding, one word for every constructor (95_test_vectors.md S2, E1 to E50), written bit by bit -/

theorem test_decode_cls : decode 0b0000000011100000#16 = .cls := by decide
theorem test_decode_ret : decode 0b0000000011101110#16 = .ret := by decide
theorem test_decode_sys : decode 0b0000111111101110#16 = .unrecognized := by decide
theorem test_decode_jp : decode 0b0001101010111100#16 = .jp 0xABC#12 := by decide
theorem test_decode_call : decode 0b0010101010111100#16 = .call 0xABC#12 := by decide
theorem test_decode_seImm : decode 0b0011101000000111#16 = .seImm 0xA#4 0x07#8 := by decide
theorem test_decode_sneImm : decode 0b0100111111111111#16 = .sneImm 0xF#4 0xFF#8 := by decide
theorem test_decode_seReg : decode 0b0101000100101111#16 = .seReg 1#4 2#4 := by decide
theorem test_decode_ldImm : decode 0b0110101000000111#16 = .ldImm 0xA#4 0x07#8 := by decide
theorem test_decode_addImm : decode 0b0111111100000001#16 = .addImm 0xF#4 0x01#8 := by decide
theorem test_decode_ldReg : decode 0b1000000100100000#16 = .ldReg 1#4 2#4 := by decide
theorem test_decode_orReg : decode 0b1000000100100001#16 = .orReg 1#4 2#4 := by decide
theorem test_decode_andReg : decode 0b1000000100100010#16 = .andReg 1#4 2#4 := by decide
theorem test_decode_xorReg : decode 0b1000000100100011#16 = .xorReg 1#4 2#4 := by decide
theorem test_decode_addReg : decode 0b1000000100100100#16 = .addReg 1#4 2#4 := by decide
theorem test_decode_sub : decode 0b1000000100100101#16 = .sub 1#4 2#4 := by decide
theorem test_decode_shr : decode 0b1000000100100110#16 = .shr 1#4 2#4 := by decide
theorem test_decode_subn : decode 0b1000000100100111#16 = .subn 1#4 2#4 := by decide
theorem test_decode_shl : decode 0b1000000100101110#16 = .shl 1#4 2#4 := by decide
theorem test_decode_sneReg : decode 0b1001101010110111#16 = .sneReg 0xA#4 0xB#4 := by decide
theorem test_decode_ldI : decode 0b1010000100100011#16 = .ldI 0x123#12 := by decide
theorem test_decode_jpV0 : decode 0b1011001100000000#16 = .jpV0 0x300#12 := by decide
theorem test_decode_rnd : decode 0b1100001100001111#16 = .rnd 3#4 0x0F#8 := by decide
theorem test_decode_drw : decode 0b1101000100100101#16 = .drw 1#4 2#4 5#4 := by decide
theorem test_decode_skp : decode 0b1110001010011110#16 = .skp 2#4 := by decide
theorem test_decode_sknp : decode 0b1110001010100001#16 = .sknp 2#4 := by decide
theorem test_decode_ldVxDt : decode 0b1111010000000111#16 = .ldVxDt 4#4 := by decide
theorem test_decode_ldVxK : decode 0b1111001100001010#16 = .ldVxK 3#4 := by decide
theorem test_decode_ldDtVx : decode 0b1111000000010101#16 = .ldDtVx 0#4 := by decide
theorem test_decode_ldStVx : decode 0b1111000000011000#16 = .ldStVx 0#4 := by decide
theorem test_decode_addI : decode 0b1111001000011110#16 = .addI 2#4 := by decide
theorem test_decode_ldF : decode 0b1111000000101001#16 = .ldF 0#4 := by decide
theorem test_decode_ldB : decode 0b1111000000110011#16 = .ldB 0#4 := by decide
theorem test_decode_storeRegs : decode 0b1111111101010101#16 = .storeRegs 0xF#4 := by decide
theorem test_decode_loadRegs : decode 0b1111011101100101#16 = .loadRegs 7#4 := by decide

/-- E25 to E27, E37, E38, E48 to E50. -/
theorem test_decode_unrecognized :
    decode 0x8128#16 = .unrecognized ∧ decode 0x812D#16 = .unrecognized ∧
    decode 0x812F#16 = .unrecognized ∧ decode 0xE29F#16 = .unrecognized ∧
    decode 0xE000#16 = .unrecognized ∧ decode 0xF075#16 = .unrecognized ∧
    decode 0xF000#16 = .unrecognized ∧ decode 0xFFFF#16 = .unrecognized := by decide

/-- R52: the byte at the lower address is the high byte. -/
theorem test_decodeBytes_high_byte_first :
    decodeBytes [0x6A#8, 0x07#8, 0x99#8] = .ok (.ldImm 0xA#4 0x07#8, [0x99#8]) ∧
    decodeBytes [0x6A#8] = .error .truncated := by decide

theorem test_decodeTableWord :
    decodeTableWord 16 0xD125 = some (.drw 1#4 2#4 5#4) ∧ decodeTableWord 16 0x0000 = some .unrecognized := by decide

/-! ### Single steps: the word stands at 0x200 and one step is run -/

/-- Registers set, one after another. -/
def regs (l : List (Nibble × Byte)) (s : State := State.reset) : State := l.foldl (fun s p => s.setReg p.1 p.2) s

/-- What a function shows of the state after one step that runs the word. -/
def see {α : Type} (w : Nat) (s : State) (f : State → α) : Option α :=
  match step (s.withFetchWord 16 w) with
  | .next t => some (f t)
  | .fault _ => none
  | .refused _ => none

/-- C1 and C2. -/
theorem test_sys_and_unrecognized_word :
    see 0x0000 State.reset (fun t => (t.pc, t.i)) = some (0x0202, 0x0000) ∧
    see 0x812F (regs [(1, 0x12), (15, 0x56)]) (fun t => (t.pc, t.reg 1, t.reg 15)) = some (0x0202, 0x12, 0x56) := by
  decide

/-- F6 and F9. -/
theorem test_ret :
    see 0x00EE (((State.reset.setSp 1).setSlot 0 0x0204).setPc 0x020C) (fun t => (t.sp, t.pc, t.slot 0)) =
      some (0x00, 0x0206, 0x0204) ∧
    see 0x00EE State.reset (fun t => (t.sp, t.pc)) = some (0x0F, 0x0002) := by decide

/-- F2, F3 and F4. -/
theorem test_jumps :
    see 0x1FFF State.reset (·.pc) = some 0x0FFF ∧ see 0xB300 (regs [(0, 0x04)]) (·.pc) = some 0x0304 ∧
    see 0xBFFF (regs [(0, 0xFF)]) (·.pc) = some 0x10FE := by decide

/-- F5 and F7. -/
theorem test_call :
    see 0x220A (State.reset.setPc 0x0204) (fun t => (t.slot 0, t.sp, t.pc)) = some (0x0204, 0x01, 0x020A) ∧
    see 0x2400 ((State.reset.setPc 0x0300).setSp 15) (fun t => (t.slot 15, t.sp, t.pc)) = some (0x0300, 0x00, 0x0400) := by
  decide

/-- F11 to F14. -/
theorem test_skips_immediate :
    see 0x3A07 (regs [(10, 0x07)]) (·.pc) = some 0x0204 ∧ see 0x3A07 (regs [(10, 0x08)]) (·.pc) = some 0x0202 ∧
    see 0x4A07 (regs [(10, 0x07)]) (·.pc) = some 0x0202 ∧ see 0x4A07 (regs [(10, 0x08)]) (·.pc) = some 0x0204 := by
  decide

/-- F15, F16, F18, F19. -/
theorem test_skips_register :
    see 0x5120 (regs [(1, 0x33), (2, 0x33)]) (·.pc) = some 0x0204 ∧
    see 0x5120 (regs [(1, 0x33), (2, 0x34)]) (·.pc) = some 0x0202 ∧
    see 0x9120 (regs [(1, 0x33), (2, 0x34)]) (·.pc) = some 0x0204 ∧
    see 0x9120 (regs [(1, 0x33), (2, 0x33)]) (·.pc) = some 0x0202 := by decide

/-- A2, A3, A5, A6, A7. -/
theorem test_loads_and_logic :
    see 0x8120 (regs [(1, 0x11), (2, 0x22), (15, 0x55)]) (fun t => (t.reg 1, t.reg 15)) = some (0x22, 0x55) ∧
    see 0x7003 (regs [(0, 0xFE), (15, 0x55)]) (fun t => (t.reg 0, t.reg 15)) = some (0x01, 0x55) ∧
    see 0x8121 (regs [(1, 0xF0), (2, 0x0F), (15, 0x55)]) (fun t => (t.reg 1, t.reg 15)) = some (0xFF, 0x55) ∧
    see 0x8122 (regs [(1, 0xF0), (2, 0x3C)]) (·.reg 1) = some 0x30 ∧
    see 0x8123 (regs [(1, 0xF0), (2, 0x3C)]) (·.reg 1) = some 0xCC := by decide

/-- A1 and A31. -/
theorem test_load_immediate :
    see 0x6A07 State.reset (·.reg 10) = some 0x07 ∧ see 0x6FAA State.reset (·.reg 15) = some 0xAA := by decide

/-- S3a, A8, A19, A21. -/
theorem test_add_registers :
    see 0x8124 (regs [(1, 0xFF), (2, 0x01)]) (fun t => (t.reg 1, t.reg 15)) = some (0x00, 0x01) ∧
    see 0x8124 (regs [(1, 0x80), (2, 0x7F), (15, 0x01)]) (fun t => (t.reg 1, t.reg 15)) = some (0xFF, 0x00) ∧
    see 0x8F14 (regs [(15, 0xF0), (1, 0x20)]) (·.reg 15) = some 0x01 ∧
    see 0x81F4 (regs [(1, 0xFF), (15, 0x01)]) (fun t => (t.reg 1, t.reg 15)) = some (0x00, 0x01) := by decide

/-- S3b, A9, A11, A26. -/
theorem test_sub :
    see 0x8125 (regs [(1, 0x05), (2, 0x09)]) (fun t => (t.reg 1, t.reg 15)) = some (0xFC, 0x00) ∧
    see 0x8125 (regs [(1, 0x33), (2, 0x33), (15, 0x01)]) (fun t => (t.reg 1, t.reg 15)) = some (0x00, 0x00) ∧
    see 0x8125 (regs [(1, 0x09), (2, 0x05)]) (fun t => (t.reg 1, t.reg 15)) = some (0x04, 0x01) ∧
    see 0x8FF5 (regs [(15, 0x09)]) (·.reg 15) = some 0x00 := by decide

/-- A12, A13, A14. -/
theorem test_subn :
    see 0x8127 (regs [(1, 0x03), (2, 0x0A)]) (fun t => (t.reg 1, t.reg 15)) = some (0x07, 0x01) ∧
    see 0x8127 (regs [(1, 0x33), (2, 0x33), (15, 0x01)]) (fun t => (t.reg 1, t.reg 15)) = some (0x00, 0x00) ∧
    see 0x8127 (regs [(1, 0x09), (2, 0x05)]) (fun t => (t.reg 1, t.reg 15)) = some (0xFC, 0x00) := by decide

/-- A16, A22, A17, A23. -/
theorem test_shifts :
    see 0x8456 (regs [(4, 0xFE), (5, 0x01), (15, 0x01)]) (fun t => (t.reg 4, t.reg 5, t.reg 15)) =
      some (0x7F, 0x01, 0x00) ∧
    see 0x8F06 (regs [(15, 0x03)]) (·.reg 15) = some 0x01 ∧
    see 0x840E (regs [(4, 0x81)]) (fun t => (t.reg 4, t.reg 15)) = some (0x02, 0x01) ∧
    see 0x8F0E (regs [(15, 0x40)]) (·.reg 15) = some 0x00 := by decide

/-- A29: a mask of 0 gives 0 whatever the random byte is. -/
theorem test_rnd_mask_zero : ∃ t, exec (.rnd 3 0x00) (regs [(3, 0x55)]) = .next t ∧ t.reg 3 = 0x00 :=
  ⟨_, rfl, BitVec.and_zero⟩

/-- G1. -/
theorem test_cls :
    see 0x00E0 (regs [(15, 0x01)] (State.reset.setDisp (Display.toggle Display.clear 63 31)))
      (fun t => (t.pixel 63 31, t.redraw, t.reg 15)) = some (false, false, 0x01) := by decide

/-- G4 (clipping at the corner) and G10 (`VF` as the column). -/
theorem test_drw :
    see 0xD125 (regs [(1, 62), (2, 30)] (State.reset.setI 0x0032))
      (fun t => ([t.pixel 62 30, t.pixel 63 30, t.pixel 62 31, t.pixel 63 31, t.pixel 0 30], t.reg 15, t.redraw)) =
      some ([true, true, true, false, false], 0x00, true) ∧
    see 0xDF25 (regs [(15, 0x01), (2, 0)] (State.reset.setI 0x0032))
      (fun t => ([t.pixel 0 0, t.pixel 1 0, t.pixel 4 0, t.pixel 2 1, t.pixel 4 4], t.reg 15)) =
      some ([false, true, true, false, true], 0x00) := by decide

/-- G5 (the second draw collides), G7 and G9 (rows above 4095 read as 0x00). -/
theorem test_drw_collision_and_bounds :
    (see 0xD125 (regs [(1, 62), (2, 30)] (State.reset.setI 0x0032)) id).bind
      (fun s => see 0xD125 s fun t => (t.pixel 62 30, t.reg 15)) = some (false, 0x01) ∧
    see 0xD125 (regs [(1, 0xFE), (15, 0x07)] (State.reset.setI 0x0032)) (fun t => (t.pixel 5 0, t.reg 15)) =
      some (false, 0x00) ∧
    see 0xD124 ((State.reset.store 0xFFE [0x80, 0x40]).setI 0x0FFE)
      (fun t => (t.pixel 0 0, t.pixel 1 1, t.pixel 0 2, t.pixel 0 3)) = some (true, true, false, false) := by decide

/-- K1, K4, K5, K6. -/
theorem test_key_skips :
    see 0xE29E (regs [(2, 0x07)] (State.reset.setKey 7 true)) (·.pc) = some 0x0204 ∧
    see 0xE2A1 (regs [(2, 0x07)]) (·.pc) = some 0x0204 ∧
    see 0xE29E (regs [(2, 0x17)] (State.reset.setKey 7 true)) (·.pc) = some 0x0202 ∧
    see 0xE2A1 (regs [(2, 0x17)] (State.reset.setKey 7 true)) (·.pc) = some 0x0204 := by decide

/-- C8, K10, K9. -/
theorem test_timer_moves :
    see 0xF407 (State.reset.setDt 9) (fun t => (t.reg 4, t.dt)) = some (0x08, 0x08) ∧
    see 0xF015 (regs [(0, 0xFF)]) (·.dt) = some 0xFF ∧
    see 0xF018 (regs [(0, 0x05)] (State.reset.setSt 1)) (fun t => (t.st, t.soundPulse)) = some (0x05, true) := by decide

/-- K13. -/
theorem test_wait_for_key :
    see 0xF30A (State.reset.setKey 5 true) (fun t => (t.wait, t.pc, t.reg 3)) = some (some 3, 0x0202, 0x00) := by decide

/-- M2, M3, M4, M6. -/
theorem test_index_register :
    see 0xAFFF State.reset (·.i) = some 0x0FFF ∧
    see 0xF21E (regs [(2, 0x01), (15, 0x55)] (State.reset.setI 0x0FFF)) (fun t => (t.i, t.reg 15)) = some (0x1000, 0x55) ∧
    see 0xF21E (regs [(2, 0x01)] (State.reset.setI 0xFFFF)) (·.i) = some 0x0000 ∧
    see 0xF029 (regs [(0, 0xFF)]) (·.i) = some 0x04FB := by decide

/-- M9. -/
theorem test_bcd_at_the_top :
    see 0xF033 (regs [(0, 0xFF)] (State.reset.setI 0x0FFE))
      (fun t => (t.memRead 0xFFE, t.memRead 0xFFF, t.memRead 0, t.i)) = some (2, 5, 0xF0, 0x0FFE) := by decide

/-- M10 and M16. -/
theorem test_store_registers :
    see 0xF255 (regs [(0, 0x11), (1, 0x22), (2, 0x33), (3, 0x44)] (State.reset.setI 0x0300))
      (fun t => (t.memRead 0x300, t.memRead 0x302, t.memRead 0x303, t.i)) = some (0x11, 0x33, 0x00, 0x0300) ∧
    see 0xF155 (regs [(0, 0xDE), (1, 0xAD)]) (fun t => (t.memRead 0, t.memRead 1, t.memRead 2)) =
      some (0xDE, 0xAD, 0x90) := by decide

/-- M13 and M14. -/
theorem test_load_registers :
    see 0xF765 (regs [(3, 0xAA), (4, 0xAA), (8, 0xAA)] ((State.reset.store 0xFFC [1, 2, 3, 4]).setI 0x0FFC))
      (fun t => (t.reg 0, t.reg 3, t.reg 4, t.reg 8)) = some (0x01, 0x04, 0x00, 0xAA) ∧
    see 0xF265 (regs [(3, 0x77)] ((State.reset.store 0x300 [2, 3, 4, 5]).setI 0x0300))
      (fun t => (t.reg 0, t.reg 2, t.reg 3, t.i)) = some (0x02, 0x04, 0x77, 0x0300) := by decide

/-! ### The cycle and the host -/

/-- What a function shows of the state after `n` steps. -/
def seeRun {α : Type} (n : Nat) (s : State) (f : State → α) : Option α :=
  match Sys2Proof.core.run n s with
  | .next t => some (f t)
  | .fault _ => none
  | .refused _ => none

/-- C7: a blocked cycle only ticks. -/
theorem test_blocked_cycle :
    seeRun 1 ((((State.reset.store 0x200 [0x64, 0x01]).setWait (some 3)).setDt 2).setSt 1)
      (fun t => ([t.dt, t.st, t.reg 4], t.soundPulse, t.pc, t.wait)) = some ([1, 0, 0], true, 0x0200, some 3) := by decide

/-- S6b: `ST` at 5 makes one pulse in 5 cycles, in the last, and C9 has none; a press puts out none and the count stays. -/
theorem test_pulses :
    seeRun 5 (State.reset.setSt 5) (fun t => (t.st, t.soundPulse, t.pulses)) = some (0, true, 1) ∧
    seeRun 1 State.reset (fun t => (t.soundPulse, t.pulses)) = some (false, 0) ∧
    seeRun 2 ((State.reset.setSt 1).setHostOps [.cycle, .press 3]) (fun t => (t.soundPulse, t.pulses)) =
      some (false, 1) := by decide

/-- C5 and C6: the word at 0xFFF and at an odd address. -/
theorem test_fetch_edges :
    seeRun 1 ((State.reset.store 0xFFF [0x12]).setPc 0x0FFF) (·.pc) = some 0x0200 ∧
    seeRun 1 ((State.reset.store 0x201 [0x6A, 0x07]).setPc 0x0201) (fun t => (t.reg 10, t.pc)) = some (0x07, 0x0203) := by
  decide

/-- C4: `PC + 2` wraps. -/
theorem test_pc_wraps : seeRun 1 (State.reset.setPc 0xFFFE) (·.pc) = some 0x0000 := by decide

/-- K15 and H1 as host operations: load, one cycle, press of key 0. -/
theorem test_host_load_cycle_press :
    seeRun 3 (State.reset.setHostOps [.load 0x200 [0xFF, 0x0A], .cycle, .press 0])
      (fun t => (t.reg 15, t.wait, t.keyDown 0, t.pc)) = some (0x00, none, true, 0x0202) := by decide

/-- H4, H5, K16: reset restores the font and clears the rest, an acknowledge clears `REDRAW`, a release its key. -/
theorem test_host_reset_ack_release :
    seeRun 1 ((((State.reset.store 0 [0xDE]).setKey 3 true).setSp 4).setHostOps [.reset])
      (fun t => (t.memRead 0, t.keyDown 3, t.sp, t.pc)) = some (0xF0, false, 0x00, 0x0200) ∧
    seeRun 1 ((State.reset.setRedraw true).setHostOps [.ackRedraw]) (·.redraw) = some false ∧
    seeRun 1 ((State.reset.setKey 9 true).setHostOps [.release 9]) (·.keyDown 9) = some false := by decide

/-! ### The memory keeps its canonical form -/

/-- A write of what an unlisted address reads as removes the cell. -/
theorem test_memory_canonical :
    (State.reset.store 0x300 [7]).mem = [(0x300, 7)] ∧ ((State.reset.store 0x300 [7]).store 0x300 [0]).mem = [] ∧
    ((State.reset.store 0x301 [7]).store 0 [0xF0, 1]).mem = [(1, 1), (0x301, 7)] ∧
    Memory.wf ((State.reset.store 0x301 [7]).store 0 [0xF0, 1]).mem := by decide

/-! ### The model follows the opcode table's first step after reset -/

theorem test_withFetchWord_runs_it :
    see 0x2ABC State.reset (fun t => (t.slot 0, t.sp, t.pc)) = some (0x0200, 0x01, 0x0ABC) ∧
    (((State.reset.setPc 0x0FFF).setWait (some 1)).withFetchWord 16 0x6A07).fetchWord = 0x6A07 := by decide

/-! ### Witnesses: the hypotheses of each statement can be met, each clause at a boundary of its range -/

/-- The state whose next cycle runs the word. -/
def ready (w : Nat) (s : State := State.reset) : State := s.withFetchWord 16 w

theorem test_witness_StepKeepsInvariant :
    ((ready 0x2ABC (State.reset.setSp 15)).sp.toNat ≤ 15 ∧ Memory.wf (ready 0x2ABC (State.reset.setSp 15)).mem) ∧
    ∃ t, step (ready 0x2ABC (State.reset.setSp 15)) = .next t := ⟨by decide, _, rfl⟩

theorem test_witness_StepRunsDecodedInstruction :
    ((State.reset.setWait (some 15)).hostOps = [] ∧ (State.reset.setWait (some 15)).wait = some 15) ∧
    ((ready 0x6FFF).hostOps = [] ∧ (ready 0x6FFF).wait = none ∧ decode (ready 0x6FFF).fetchWord = .ldImm 15 0xFF) ∧
    ((ready 0xFFFF).wait = none ∧ decode (ready 0xFFFF).fetchWord = .unrecognized) := by decide

theorem test_witness_StepRunsPendingHostOperation :
    (State.reset.setHostOps [.press 15, .cycle]).hostOps = .press 15 :: [.cycle] := by decide

theorem test_witness_EveryPulseIsCounted :
    (∃ t, step (State.reset.setSt 1) = .next t ∧ t.soundPulse = true ∧ t.pulses = 1) ∧
    (HostOp.press 15 ≠ .cycle ∧ ∃ t, hostStep (.press 15) (State.reset.setWait (some 15)) = .next t) :=
  ⟨⟨_, rfl, by decide, by decide⟩, by decide, _, rfl⟩

theorem test_witness_CycleTicksBothTimers :
    (∃ t, cycle ((State.reset.setSt 1).setDt 255) = .next t) ∧
    decode ((State.reset.setSt 1).setDt 255).fetchWord = .unrecognized ∧
    (∀ x, ¬ ((State.reset.setSt 1).setDt 255).executes (.ldDtVx x)) ∧
    (∀ x, ¬ ((State.reset.setSt 1).setDt 255).executes (.ldStVx x)) := by
  refine ⟨⟨_, rfl⟩, by decide, fun x h => ?_, fun x h => ?_⟩ <;> exact absurd h.2 (by clear h; revert x; decide)

theorem test_witness_TimersTickBeforeExecution :
    (ready 0xFF07).executes (.ldVxDt 15) ∧ (ready 0xFF15).executes (.ldDtVx 15) ∧
    ((ready 0xFF18 (State.reset.setSt 1)).executes (.ldStVx 15) ∧ (ready 0xFF18 (State.reset.setSt 1)).st.toNat = 1) ∧
    (ready 0xFF0A).executes (.ldVxK 15) ∧ (State.reset.setWait (some 0)).wait ≠ none :=
  ⟨by decide, by decide, by decide, by decide, by decide⟩

theorem test_witness_ExecutionModeTransitions :
    (ready 0xF00A).executes (.ldVxK 0) ∧
    ((ready 0xFFFF).wait = none ∧ (∀ x, ¬ (ready 0xFFFF).executes (.ldVxK x)) ∧ ∃ t, cycle (ready 0xFFFF) = .next t) ∧
    (State.reset.setWait (some 15)).wait = some 15 := by
  refine ⟨by decide, ⟨by decide, fun x h => ?_, _, rfl⟩, by decide⟩
  exact absurd h.2 (by clear h; revert x; decide)

theorem test_witness_BlockedRunCountsDown :
    (((State.reset.setWait (some 15)).setSt 1).wait = some 15 ∧ ((State.reset.setWait (some 15)).setSt 1).hostOps = []) ∧
    0 < 1 ∧ ((State.reset.setWait (some 15)).setSt 1).st.toNat = 1 := by decide

theorem test_witness_PressSetsFlagAndEndsWait :
    (State.reset.setWait (some 15)).wait = some 15 ∧ State.reset.wait = none := by decide

theorem test_witness_LoadWritesItsBytes :
    (0 < [0xFF#8, 0x01#8].length ∧ 4095 + 0 ≤ 4095) ∧ ¬ (4095 ≤ 4094 ∧ 4094 < 4095 + [0xFF#8, 0x01#8].length) ∧
    ¬ (4095 ≤ 4097 ∧ 4097 < 4095 + [0xFF#8, 0x01#8].length) := by decide

theorem test_witness_AccessesAreBoundsChecked : 4095 < 4096 ∧ (4095 = 4095 ∧ 4095 ≤ 4095) := by decide

theorem test_witness_StoreIsFetchedNext :
    (0#4 : Nibble).toNat + 1 ≤ (1#4 : Nibble).toNat ∧
    (ready 0xF155 (State.reset.setI 0x0202)).i.toNat + (0#4 : Nibble).toNat + 1 ≤ 4095 ∧
    (ready 0xF155 (State.reset.setI 0x0202)).i.toNat + (0#4 : Nibble).toNat =
      ((ready 0xF155 (State.reset.setI 0x0202)).pc.toNat + 2) % 65536 := by decide

theorem test_witness_SysAndUnrecognizedAreNoOps :
    decode 0x8FF8#16 = .unrecognized ∧ (0x0E1#12 ≠ 0x0E0#12 ∧ 0x0E1#12 ≠ 0x0EE#12) := by decide

theorem test_witness_CallPushesItsOwnAddress :
    (State.reset.setSp 15).sp.toNat ≤ 15 ∧ ((0#8 : Byte).toNat ≤ 15 ∧ (0#8 : Byte) ≠ (State.reset.setSp 15).sp) := by
  decide

theorem test_witness_SixteenCallsUnwind :
    (State.reset.setSp 15).sp.toNat ≤ 15 ∧ 0 < (List.replicate 16 0xFFF#12).length ∧
    (List.replicate 16 0xFFF#12).length ≤ 16 := by decide

/-- Both sides of every skip: the condition holds in one state and fails in another. -/
theorem test_witness_SkipsCompareRegisters :
    (regs [(15, 0xFF)]).reg 15 = 0xFF#8 ∧ ¬ (regs [(15, 0xFE)]).reg 15 = 0xFF#8 ∧
    (regs [(15, 0xFF)]).reg 15 = (regs [(15, 0xFF)]).reg 15 ∧ ¬ (regs [(15, 0xFF)]).reg 15 = (regs [(15, 0xFF)]).reg 0 := by
  decide

/-- The clause for a result register that is not the flag register. -/
theorem test_witness_flag_writers_with_another_destination : (14#4 : Nibble) ≠ 15#4 := by decide

theorem test_witness_DrwTogglesTheSpritesPixels :
    (63 ≤ 63 ∧ 31 ≤ 31) ∧
    (regs [(1, 63), (2, 31)] (State.reset.setI 0)).spriteBit 1 2 1 63 31 = true ∧
    (regs [(1, 63), (2, 31)] (State.reset.setI 0)).pixel 63 31 = false := by decide

theorem test_witness_DrawingTwiceRestores : (14#4 : Nibble) ≠ 15#4 ∧ (0#4 : Nibble) ≠ 15#4 := by decide

theorem test_witness_KeySkipsTestTheNamedKey :
    ((regs [(2, 15)] (State.reset.setKey 15 true)).reg 2).toNat ≤ 15 ∧
    (regs [(2, 15)] (State.reset.setKey 15 true)).keyDown (BitVec.ofNat 4 15) = true ∧
    ¬ ((regs [(2, 16)] (State.reset.setKey 0 true)).reg 2).toNat ≤ 15 := by decide

theorem test_witness_BcdStoresThreeDigits :
    (State.reset.setI 4095).i.toNat ≤ 4095 ∧ (State.reset.setI 4094).i.toNat + 1 ≤ 4095 ∧
    (State.reset.setI 4093).i.toNat + 2 ≤ 4095 ∧
    ¬ ((State.reset.setI 4093).i.toNat ≤ 4092 ∧ 4092 < (State.reset.setI 4093).i.toNat + 3) := by decide

theorem test_witness_StoreRegistersWritesTheBlock :
    ((15#4 : Nibble).toNat ≤ (15#4 : Nibble).toNat ∧ (State.reset.setI 4080).i.toNat + (15#4 : Nibble).toNat ≤ 4095) ∧
    ¬ ((State.reset.setI 4080).i.toNat ≤ 4079 ∧ 4079 < (State.reset.setI 4080).i.toNat + ((15#4 : Nibble).toNat + 1)) := by
  decide

theorem test_witness_LoadRegistersReadsTheBlock :
    (14#4 : Nibble).toNat ≤ (14#4 : Nibble).toNat ∧ (14#4 : Nibble).toNat < (15#4 : Nibble).toNat ∧
    (State.reset.setI 4081).i.toNat + (14#4 : Nibble).toNat ≤ 4095 ∧
    ¬ (State.reset.setI 4082).i.toNat + (14#4 : Nibble).toNat ≤ 4095 := by decide

/-- A state after the store in which another byte has been written since. -/
theorem test_witness_StoreThenLoadRestoresRegisters :
    ∃ u : State, (State.reset.setI 4080).i.toNat + (15#4 : Nibble).toNat ≤ 4095 ∧ u.i = (State.reset.setI 4080).i ∧
      (∀ t, exec (.storeRegs 15#4) (State.reset.setI 4080) = .next t → ∀ k : Nibble, k.toNat ≤ (15#4 : Nibble).toNat →
        u.memRead ((State.reset.setI 4080).i.toNat + k.toNat) = t.memRead ((State.reset.setI 4080).i.toNat + k.toNat)) ∧
      (15#4 : Nibble).toNat ≤ (15#4 : Nibble).toNat := by
  refine ⟨((State.reset.setI 4080).store (State.reset.setI 4080).base
    ((State.reset.setI 4080).regBlock 15#4)).advance.store 4079 [7], by decide, rfl, fun t h => ?_, by decide⟩
  cases h; decide

theorem test_witness_OnlyNamedInstructionsWrite :
    ∃ t, exec (.addReg 0#4 1#4) (regs [(0, 0xFF), (1, 0x01)]) = .next t ∧
      t.reg 0 ≠ (regs [(0, 0xFF), (1, 0x01)]).reg 0 ∧ t.reg 15 ≠ (regs [(0, 0xFF), (1, 0x01)]).reg 15 := by
  refine ⟨_, rfl, ?_, ?_⟩ <;> decide

theorem test_witness_FlagIsZeroOrOne :
    writesFlag (.shl 15#4 0#4) = true ∧ ∃ t, exec (.shl 15#4 0#4) (regs [(15, 0x40)]) = .next t := ⟨by decide, _, rfl⟩

theorem test_witness_PlainInstructionsAdvanceByTwo :
    transfersControl (.ldB 15#4) = false ∧ ∃ t, exec (.ldB 15#4) State.reset = .next t := ⟨by decide, _, rfl⟩

theorem test_witness_UnreadStateDoesNotMatter :
    (∃ t, exec (.ldVxDt 0#4) State.reset = .next t) ∧ (∀ x, Instr.ldVxDt 0#4 ≠ .ldStVx x) ∧
    (∀ x y n, Instr.ldVxDt 0#4 ≠ .drw x y n) ∧ (∀ x, Instr.ldVxDt 0#4 ≠ .skp x) ∧ (∀ x, Instr.ldVxDt 0#4 ≠ .sknp x) := by
  refine ⟨⟨_, rfl⟩, ?_, ?_, ?_, ?_⟩ <;> simp

/-- 0x5FFF and 0x9FFF have an ignored low nibble. -/
theorem test_witness_EncodeOfDecode :
    decode 0x5FFF#16 = .seReg 15#4 15#4 ∧ decode 0x9FFF#16 = .sneReg 15#4 15#4 ∧
    decode 0xFF65#16 = .loadRegs 15#4 ∧ (decode 0xFF65#16).wellFormed = true := by decide

theorem test_decode_fields :
    decode 0xD5AF#16 = .drw 0x5#4 0xA#4 0xF#4 ∧ decode 0x2FFF#16 = .call 0xFFF#12 ∧
    decode 0xC0FF#16 = .rnd 0#4 0xFF#8 := by decide

theorem test_witness_DecodeSelectsOpcodeRow :
    (Instr.cls ≠ .unrecognized ∧ 0x00E0#16 &&& (opcodeRow .cls).2 = (opcodeRow .cls).1) ∧
    (0x00E1#16 &&& (opcodeRow .unrecognized).2 = (opcodeRow .unrecognized).1 ∧ 0x00E1#16 ≠ 0x00E0#16 ∧
      0x00E1#16 ≠ 0x00EE#16) ∧
    (∀ i, i ≠ Instr.unrecognized → 0xF0FF#16 &&& (opcodeRow i).2 ≠ (opcodeRow i).1) := by
  refine ⟨by decide, by decide, fun i hi => ?_⟩
  cases i <;> first | exact absurd rfl hi | (simp only [opcodeRow]; decide)

theorem test_witness_UnrecognizedWordsAreExactlyThese :
    unrecognizedWord 0x0FFF#16 ∧ unrecognizedWord 0x8FFF#16 ∧ unrecognizedWord 0xEFFF#16 ∧ unrecognizedWord 0xFFFF#16 := by
  unfold unrecognizedWord; decide

end Sys2Proof.Tests
end

section
/-! PROOFS. What the next step is when the host has asked for an operation (R10, R228, R241). -/

namespace Sys2Proof.Machine

/-- The agenda is served from its head (R10, R228, log 2). -/
theorem step_of_hostOps_cons {s : State} {op : HostOp} {rest : List HostOp} (h : s.hostOps = op :: rest) :
    step s = hostStep op (s.setHostOps rest) := by
  obtain ⟨hnone, -⟩ | ⟨op', rest', hsome, hstep⟩ := step_cases (s := s) rfl
  · exact absurd (h.symm.trans hnone) (List.cons_ne_nil op rest)
  · obtain ⟨rfl, rfl⟩ := List.cons.inj (h.symm.trans hsome)
    exact hstep

/-- The host's `cycle` is the core's own (R241). -/
@[simp] theorem hostStep_cycle (s : State) : hostStep .cycle s = cycle s := rfl

/-- Settles O6: the pending operation at the head of the agenda is the step, and `cycle` is one such operation. -/
theorem stepRunsPendingHostOperation : Obligations.StepRunsPendingHostOperation := by
  unfold Obligations.StepRunsPendingHostOperation
  intro s op rest h
  exact ⟨step_of_hostOps_cons h, hostStep_cycle s⟩

end Sys2Proof.Machine
end

section
/-! PROOFS. The invariant of R39: `SP` at most 15 and memory in its canonical form, at reset and after every step. -/

namespace Sys2Proof.Machine

theorem spUp_le (b : Byte) : (spUp b).toNat ≤ 15 := by
  rw [spUp_toNat]; omega

theorem spDown_le (b : Byte) : (spDown b).toNat ≤ 15 := by
  rw [spDown_toNat]; omega

/-- The invariant of a state with the same stack pointer and memory. -/
theorem State.Inv.congr {s t : State} (h : s.Inv) (hsp : t.sp = s.sp) (hmem : t.mem = s.mem) : t.Inv := by
  unfold State.Inv
  rw [hsp, hmem]
  exact h

theorem State.Inv.store {s : State} (h : s.Inv) (a : Nat) (bs : List Byte) : (s.store a bs).Inv :=
  ⟨h.1, Memory.writeBytes_wf h.2 a bs⟩

/-- `SP` is written by `CALL` and `RET`, which count modulo 16 (R25), and memory by `LD B` and `LD [I]` (R29). -/
theorem exec_inv {i : Instr} {s t : State} (hs : s.Inv) (h : exec i s = .next t) : t.Inv := by
  cases i with
  | call nnn => cases h; exact ⟨spUp_le s.sp, hs.2⟩
  | ret => cases h; exact ⟨spDown_le s.sp, hs.2⟩
  | ldB x => cases h; exact hs.store s.base (bcdDigits (s.reg x))
  | storeRegs x => cases h; exact hs.store s.base (s.regBlock x)
  | _ => cases h; exact hs.congr rfl rfl

theorem cycle_inv {s t : State} (hs : s.Inv) (h : cycle s = .next t) : t.Inv := by
  have htick : s.tick.Inv := hs.congr (by simp) (by simp)
  obtain ⟨r, -, hblocked⟩ | ⟨i, -, hexec⟩ := cycle_cases s
  · cases hblocked.symm.trans h; exact htick
  · exact exec_inv htick (hexec.symm.trans h)

/-- The two cases of a press (R238): a running core, and one blocked on a key for `V[r]`. -/
theorem hostPress_cases (s : State) (k : Nibble) :
    (s.wait = none ∧ s.hostPress k = (s.setKey k true).noPulse) ∨
    ∃ r, s.wait = some r ∧ s.hostPress k = (((s.setKey k true).setReg r (k.setWidth 8)).setWait none).noPulse := by
  unfold State.hostPress
  cases s.wait with
  | none => exact .inl ⟨rfl, rfl⟩
  | some r => exact .inr ⟨r, rfl, rfl⟩

/-- Settles O2: at reset `SP` is 0 and no cell is listed. -/
theorem invariantHoldsAtReset : Obligations.InvariantHoldsAtReset := by
  unfold Obligations.InvariantHoldsAtReset State.Inv Memory.wf
  decide

theorem hostStep_inv {op : HostOp} {s t : State} (hs : s.Inv) (h : hostStep op s = .next t) : t.Inv := by
  cases op with
  | reset => cases h; exact State.Inv.congr invariantHoldsAtReset rfl rfl
  | load a bs => cases h; exact (hs.store a bs).congr rfl rfl
  | press k =>
    cases h
    obtain ⟨-, hk⟩ | ⟨r, -, hk⟩ := hostPress_cases s k
    · rw [hk]; exact hs.congr rfl rfl
    · rw [hk]; exact hs.congr rfl rfl
  | release k => cases h; exact hs.congr rfl rfl
  | ackRedraw => cases h; exact hs.congr rfl rfl
  | cycle => exact cycle_inv hs h

/-- Settles O3: a step is a cycle or the oldest pending operation of the host, and each of them keeps the invariant. -/
theorem stepKeepsInvariant : Obligations.StepKeepsInvariant := by
  unfold Obligations.StepKeepsInvariant
  intro s t hs h
  obtain ⟨-, hcycle⟩ | ⟨op, rest, -, hop⟩ := step_cases h
  · exact cycle_inv hs hcycle.symm
  · exact hostStep_inv (s := s.setHostOps rest) (hs.congr rfl rfl) hop.symm

end Sys2Proof.Machine
end

section
/-! PROOFS. What an instruction writes, reads and does with `PC` (10_state.md), and from it that every pulse is counted
(R36). -/

namespace Sys2Proof.Machine

/-! ### Frames of the state operations -/

/-- A later state may be replaced in a frame by one that reads alike in every part the frame keeps. -/
theorem sameBut_congr {ps : List Part} {s t u : State} (h : ∀ p, p ∉ ps → (p.same s u ↔ p.same s t)) :
    sameBut ps s u ↔ sameBut ps s t := forall₂_congr h

section
variable {ps : List Part} {s t : State}

@[simp] theorem sameBut_setPc (w : Word) : sameBut ps s (t.setPc w) ↔ sameBut ps s t :=
  sameBut_congr fun p _ => by cases p <;> rfl

@[simp] theorem sameBut_setRegs (h : .registers ∈ ps) (v : Vector Byte 16) :
    sameBut ps s (t.setRegs v) ↔ sameBut ps s t :=
  sameBut_congr fun p hp => by cases p <;> simp_all [Part.same]

@[simp] theorem sameBut_setReg (h : .registers ∈ ps) (r : Nibble) (b : Byte) :
    sameBut ps s (t.setReg r b) ↔ sameBut ps s t := sameBut_setRegs h _

@[simp] theorem sameBut_setI (h : .index ∈ ps) (w : Word) : sameBut ps s (t.setI w) ↔ sameBut ps s t :=
  sameBut_congr fun p hp => by cases p <;> simp_all [Part.same]

@[simp] theorem sameBut_setSp (h : .callStack ∈ ps) (b : Byte) : sameBut ps s (t.setSp b) ↔ sameBut ps s t :=
  sameBut_congr fun p hp => by cases p <;> simp_all [Part.same]

@[simp] theorem sameBut_setSlot (h : .callStack ∈ ps) (j : Byte) (w : Word) :
    sameBut ps s (t.setSlot j w) ↔ sameBut ps s t :=
  sameBut_congr fun p hp => by cases p <;> simp_all [Part.same]

@[simp] theorem sameBut_store (h : .memory ∈ ps) (a : Nat) (bs : List Byte) :
    sameBut ps s (t.store a bs) ↔ sameBut ps s t :=
  sameBut_congr fun p hp => by cases p <;> simp_all [Part.same]

@[simp] theorem sameBut_setDisp (h : .display ∈ ps) (d : Display) : sameBut ps s (t.setDisp d) ↔ sameBut ps s t :=
  sameBut_congr fun p hp => by cases p <;> simp_all [Part.same]

@[simp] theorem sameBut_setDt (h : .delayTimer ∈ ps) (b : Byte) : sameBut ps s (t.setDt b) ↔ sameBut ps s t :=
  sameBut_congr fun p hp => by cases p <;> simp_all [Part.same]

@[simp] theorem sameBut_setSt (h : .soundTimer ∈ ps) (b : Byte) : sameBut ps s (t.setSt b) ↔ sameBut ps s t :=
  sameBut_congr fun p hp => by cases p <;> simp_all [Part.same]

@[simp] theorem sameBut_setWait (h : .keyWait ∈ ps) (w : Option Nibble) :
    sameBut ps s (t.setWait w) ↔ sameBut ps s t :=
  sameBut_congr fun p hp => by cases p <;> simp_all [Part.same]

@[simp] theorem sameBut_setRedraw (h : .redrawFlag ∈ ps) (b : Bool) :
    sameBut ps s (t.setRedraw b) ↔ sameBut ps s t :=
  sameBut_congr fun p hp => by cases p <;> simp_all [Part.same]

@[simp] theorem sameBut_setDraws (h : .randomDraws ∈ ps) (n : Nat) :
    sameBut ps s (t.setDraws n) ↔ sameBut ps s t :=
  sameBut_congr fun p hp => by cases p <;> simp_all [Part.same]

end

/-! ### What an instruction writes -/

/-- Every part but the written ones reads as before: the frames of the operations an instruction is made of. -/
theorem exec_sameBut {i : Instr} {s t : State} (h : exec i s = .next t) : sameBut (writtenParts i) s t := by
  cases i <;> cases h <;> simp [writtenParts, State.setRegBlock, sameBut.refl]

theorem mem_destinations_loadRegs {x r : Nibble} : r ∈ destinations (.loadRegs x) ↔ r.toNat ≤ x.toNat := by
  simp only [destinations, List.mem_map, List.mem_range]
  constructor
  · rintro ⟨j, hj, rfl⟩
    simp; omega
  · exact fun h => ⟨r.toNat, by omega, by simp⟩

/-- A register keeps its value if it is no destination and, where it is `V[15]`, the instruction writes no flag (R21, R22). -/
theorem exec_reg_eq {i : Instr} {s t : State} (h : exec i s = .next t) {r : Nibble} (hr : r ∉ destinations i)
    (hflag : r = flagReg → writesFlag i = false) : t.reg r = s.reg r := by
  cases i with
  | loadRegs x =>
    rw [mem_destinations_loadRegs] at hr
    cases h; simp [State.reg_setRegBlock, hr]
  | addReg x y | sub x y | subn x y | shr x y | shl x y | drw x y n =>
    have hne : r ≠ flagReg := fun e => by cases hflag e
    cases h; simp_all [destinations]
  | _ => cases h; simp_all [destinations]

/-- Settles O42: the frame of every instruction, and of every register that is no destination. -/
theorem onlyNamedInstructionsWrite : Obligations.OnlyNamedInstructionsWrite := by
  unfold Obligations.OnlyNamedInstructionsWrite
  intro i s t h
  refine ⟨exec_sameBut h, fun r hchanged => ?_⟩
  by_contra hnot
  obtain ⟨hdest, hflag⟩ := not_or.mp hnot
  exact hchanged (exec_reg_eq h hdest fun e => by simpa using not_and.mp hflag e)

/-! ### The flag and the program counter -/

/-- The flag is the last register write, so it stands also when the result's register is `V[15]` (R117). -/
theorem exec_flag {i : Instr} {s t : State} (hi : writesFlag i = true) (h : exec i s = .next t) :
    ∃ f, t.reg flagReg = flagByte f := by
  cases i with
  | addReg x y | sub x y | subn x y | shr x y | shl x y | drw x y n => cases h; simp
  | _ => cases hi

/-- Settles O43: a flag is written as `flagByte`, after the result. -/
theorem flagIsZeroOrOne : Obligations.FlagIsZeroOrOne := by
  unfold Obligations.FlagIsZeroOrOne
  intro i s t hi h
  obtain ⟨f, hf⟩ : ∃ f, t.reg 15#4 = flagByte f := exec_flag hi h
  rw [hf, flagByte_toNat]
  cases f <;> simp

theorem exec_pc {i : Instr} {s t : State} (hi : transfersControl i = false) (h : exec i s = .next t) :
    t.pc = s.pc + 2#16 := by
  cases i with
  | ret | jp _ | call _ | jpV0 _ | seImm _ _ | sneImm _ _ | seReg _ _ | sneReg _ _ | skp _ | sknp _ => cases hi
  | _ => cases h; rfl

/-- Settles O44: `PC + 2` in 16 bits. -/
theorem plainInstructionsAdvanceByTwo : Obligations.PlainInstructionsAdvanceByTwo := by
  unfold Obligations.PlainInstructionsAdvanceByTwo pcPlus
  intro i s t hi h
  rw [exec_pc hi h, pc_add_two]

/-! ### What an instruction does not read

A meaning is an update computed from the fields it reads: with another value in a field it does not read, both sides
are the same term. -/

section
variable {i : Instr} {s t : State} (h : exec i s = .next t)
include h

theorem exec_setSoundPulse (b : Bool) : exec i (s.setSoundPulse b) = .next (t.setSoundPulse b) := by
  cases i <;> cases h <;> rfl

theorem exec_setPulses (n : Nat) : exec i (s.setPulses n) = .next (t.setPulses n) := by
  cases i <;> cases h <;> rfl

theorem exec_setSt (hi : ∀ x, i ≠ .ldStVx x) (b : Byte) : exec i (s.setSt b) = .next (t.setSt b) := by
  cases i with
  | ldStVx x => exact absurd rfl (hi x)
  | _ => cases h; rfl

theorem exec_setRedraw (hi : ∀ x y n, i ≠ .drw x y n) (b : Bool) :
    exec i (s.setRedraw b) = .next (t.setRedraw b) := by
  cases i with
  | drw x y n => exact absurd rfl (hi x y n)
  | _ => cases h; rfl

theorem exec_setKey (hskp : ∀ x, i ≠ .skp x) (hsknp : ∀ x, i ≠ .sknp x) (k : Nibble) (b : Bool) :
    exec i (s.setKey k b) = .next (t.setKey k b) := by
  cases i with
  | skp x => exact absurd rfl (hskp x)
  | sknp x => exact absurd rfl (hsknp x)
  | _ => cases h; rfl

end

/-- Settles O45: one field at a time. -/
theorem unreadStateDoesNotMatter : Obligations.UnreadStateDoesNotMatter := by
  unfold Obligations.UnreadStateDoesNotMatter
  intro i s t h
  exact ⟨exec_setSoundPulse h, exec_setPulses h, fun b hi => exec_setSt h hi b, fun b hi => exec_setRedraw h hi b,
    fun k b hskp hsknp => exec_setKey h hskp hsknp k b⟩

/-! ### The count of pulses -/

/-- No instruction is named as a writer of the output or of its count. -/
theorem pulse_not_mem_writtenParts (i : Instr) : .pulse ∉ writtenParts i ∧ .pulseCount ∉ writtenParts i := by
  cases i <;> simp [writtenParts]

theorem exec_pulse_eq {i : Instr} {s t : State} (h : exec i s = .next t) :
    t.soundPulse = s.soundPulse ∧ t.pulses = s.pulses := by
  obtain ⟨hpulse, hcount⟩ := pulse_not_mem_writtenParts i
  exact ⟨exec_sameBut h .pulse hpulse, exec_sameBut h .pulseCount hcount⟩

theorem tick_counts_pulse (s : State) : s.tick.pulses = s.pulses + if s.tick.soundPulse = true then 1 else 0 := by
  cases h : s.st == 1#8 <;> simp [h]

/-- The tick puts out the cycle's pulse and counts it (R113); what comes after it in the cycle keeps both. -/
theorem cycle_counts_pulse {s t : State} (h : cycle s = .next t) :
    t.pulses = s.pulses + if t.soundPulse = true then 1 else 0 := by
  obtain ⟨r, -, hblocked⟩ | ⟨i, -, hexec⟩ := cycle_cases s
  · cases hblocked.symm.trans h; exact tick_counts_pulse s
  · obtain ⟨hpulse, hcount⟩ := exec_pulse_eq (hexec.symm.trans h)
    rw [hpulse, hcount, tick_counts_pulse]

theorem hostStep_noPulse {op : HostOp} {s t : State} (hop : op ≠ .cycle) (h : hostStep op s = .next t) :
    t.soundPulse = false ∧ t.pulses = s.pulses := by
  cases op with
  | press k =>
    cases h
    obtain ⟨-, hk⟩ | ⟨r, -, hk⟩ := hostPress_cases s k <;> simp [hk]
  | cycle => exact absurd rfl hop
  | _ => cases h; exact ⟨rfl, rfl⟩

theorem hostStep_counts_pulse {op : HostOp} {s t : State} (h : hostStep op s = .next t) :
    t.pulses = s.pulses + if t.soundPulse = true then 1 else 0 := by
  by_cases hop : op = .cycle
  · subst hop; exact cycle_counts_pulse h
  · obtain ⟨hpulse, hcount⟩ := hostStep_noPulse hop h
    simp [hpulse, hcount]

/-- Settles O8: a cycle counts the pulse of its tick, and an operation of the host that is no cycle puts out none. -/
theorem everyPulseIsCounted : Obligations.EveryPulseIsCounted := by
  unfold Obligations.EveryPulseIsCounted
  refine ⟨fun s t h => ?_, fun s t op => hostStep_noPulse⟩
  obtain ⟨-, hcycle⟩ | ⟨op, rest, -, hop⟩ := step_cases h
  · exact cycle_counts_pulse hcycle.symm
  · exact hostStep_counts_pulse (s := s.setHostOps rest) hop.symm

end Sys2Proof.Machine
end

section
/-! PROOFS. Nested calls unwind (R26, R130, R133): what a run of `CALL`s and as many `RET`s keeps of the stack. -/

namespace Sys2Proof.Machine

theorem execSeq_cons {i : Instr} {s t : State} (h : exec i s = .next t) (is : List Instr) :
    execSeq (i :: is) s = execSeq is t := by
  simp only [execSeq, h]

theorem execSeq_append {is : List Instr} {s t : State} (h : execSeq is s = .next t) (js : List Instr) :
    execSeq (is ++ js) s = execSeq js t := by
  induction is generalizing s with
  | nil => cases h; rfl
  | cons i is ih =>
    cases hi : exec i s with
    | next u => rw [List.cons_append, execSeq_cons hi, ih (by rwa [execSeq_cons hi] at h)]
    | fault f => simp [execSeq, hi] at h
    | refused r => simp [execSeq, hi] at h

/-- `CALL`s to the targets, one nested in the other, and a `RET` for each. -/
def callsAndReturns (targets : List Addr) : List Instr :=
  targets.map Instr.call ++ List.replicate targets.length Instr.ret

theorem callsAndReturns_cons (a : Addr) (targets : List Addr) :
    callsAndReturns (a :: targets) = .call a :: (callsAndReturns targets ++ [.ret]) := by
  simp [callsAndReturns, List.replicate_succ']

theorem spDown_spUp {b : Byte} (h : b.toNat ≤ 15) : spDown (spUp b) = b := by
  apply BitVec.eq_of_toNat_eq
  rw [spDown_toNat, spUp_toNat]; omega

/-- How far above the slot of `sp` the slot `j` is, going round the 16 slots. -/
def slotsAbove (sp j : Byte) : Nat := (j.toNat % 16 + 16 - sp.toNat % 16) % 16

/-- Seen from the slot above it, a slot is the last one of the round. -/
theorem slotsAbove_spUp_same (sp : Byte) : slotsAbove (spUp sp) sp = 15 := by
  unfold slotsAbove
  rw [spUp_toNat]; omega

theorem slotsAbove_spUp {sp j : Byte} (h : 0 < slotsAbove sp j) : slotsAbove (spUp sp) j + 1 = slotsAbove sp j := by
  unfold slotsAbove at h ⊢
  rw [spUp_toNat]; omega

theorem slot_setSlot_above (s : State) {sp j : Byte} (h : 0 < slotsAbove sp j) (w : Word) :
    (s.setSlot sp w).slot j = s.slot j := by
  have hne : ¬ j.toNat % 16 = sp.toNat % 16 := by unfold slotsAbove at h; omega
  rw [State.slot_setSlot, if_neg hne]

/-- The strengthening that the induction over the targets needs: beyond the slots that the calls use, the run keeps the
stack. The slot of the outer call is 15 above the inner calls' first, so up to 15 of those do not reach it. -/
theorem execSeq_callsAndReturns (targets : List Addr) (s : State) (hsp : s.sp.toNat ≤ 15) (hlen : targets.length ≤ 16) :
    ∃ t, execSeq (callsAndReturns targets) s = .next t ∧ t.sp = s.sp ∧ (0 < targets.length → t.pc = s.pc + 2#16) ∧
      ∀ j, targets.length ≤ slotsAbove s.sp j → t.slot j = s.slot j := by
  induction targets generalizing s with
  | nil => exact ⟨s, rfl, rfl, fun h => absurd h (Nat.lt_irrefl 0), fun _ _ => rfl⟩
  | cons a targets ih =>
    rw [List.length_cons] at hlen
    obtain ⟨t, hrun, htsp, -, hslot⟩ :=
      ih (((s.setSlot s.sp s.pc).setSp (spUp s.sp)).setPc (addrOperand a)) (spUp_le s.sp) (by omega)
    replace htsp : t.sp = spUp s.sp := htsp
    have hback : spDown t.sp = s.sp := by rw [htsp, spDown_spUp hsp]
    have hcaller : t.slot s.sp = s.pc := by
      rw [hslot s.sp (by simp [slotsAbove_spUp_same]; omega)]; simp
    refine ⟨(t.setSp (spDown t.sp)).setPc (t.slot (spDown t.sp) + 2#16), ?_, hback, fun _ => ?_, fun j hj => ?_⟩
    · rw [callsAndReturns_cons, execSeq_cons rfl]
      exact execSeq_append hrun [.ret]
    · simp [hback, hcaller]
    · rw [List.length_cons] at hj
      have hj0 : 0 < slotsAbove s.sp j := by omega
      have habove := slotsAbove_spUp hj0
      simp [hslot j (by simp; omega), slot_setSlot_above s hj0]

/-- Settles O21, by induction on the call targets. -/
theorem sixteenCallsUnwind : Obligations.SixteenCallsUnwind := by
  unfold Obligations.SixteenCallsUnwind pcPlus
  intro targets s hsp hpos hlen
  obtain ⟨t, hrun, htsp, hpc, -⟩ := execSeq_callsAndReturns targets s hsp hlen
  exact ⟨t, hrun, htsp, by rw [hpc hpos, pc_add_two]⟩

end Sys2Proof.Machine
end

section
/-! PROOFS. Bounds-checked memory accesses (R54, R55) and a block store over the next word to fetch (R64). -/

namespace Sys2Proof.Machine

/-! ### Bounds-checked accesses -/

/-- A byte of the machine's memory after a one-byte store (R55). -/
theorem State.memRead_store_byte (s : State) (a b : Nat) (v : Byte) :
    (s.store a [v]).memRead b = if b = a ∧ a ≤ 4095 then v else s.memRead b := by
  have hbound : a < 4096 ↔ a ≤ 4095 := Nat.lt_succ_iff
  simp only [← hbound]
  exact Memory.read_write s.mem a b v

/-- A store is the store of its first byte followed by the store of the others (R55, R59). -/
theorem State.store_cons (s : State) (a : Nat) (b : Byte) (bs : List Byte) :
    s.store a (b :: bs) = (s.store a [b]).store (a + 1) bs := rfl

/-- Settles O15: what a read gives outside memory and after a byte store, a store byte by byte, and the fetched word. -/
theorem accessesAreBoundsChecked : Obligations.AccessesAreBoundsChecked := by
  unfold Obligations.AccessesAreBoundsChecked
  exact ⟨fun s a ha => Memory.read_outside s.mem a ha, fun s a v b => s.memRead_store_byte a b v,
    fun s a b bs => congrArg State.mem (s.store_cons a b bs), fetchWord_toNat⟩

/-! ### A block store over the next word -/

/-- A block store of registers is a store of `V[0]` to `V[x]` at `I` (R204). -/
theorem exec_storeRegs (x : Nibble) (s : State) :
    exec (.storeRegs x) s = .next ((s.store s.i.toNat (s.regBlock x)).setPc (s.pc + 2#16)) := rfl

/-- Inside memory the byte `k` above the block's address is `V[k]` (R204). -/
theorem State.memRead_store_regBlock (s : State) {a : Nat} {x k : Nibble} (hk : k.toNat ≤ x.toNat)
    (hin : a + k.toNat ≤ 4095) : (s.store a (s.regBlock x)).memRead (a + k.toNat) = s.reg k := by
  have hblock : a ≤ a + k.toNat ∧ a + k.toNat < a + (s.regBlock x).length ∧ a + k.toNat < 4096 := by
    rw [State.regBlock_length]; omega
  rw [State.memRead_store, if_pos hblock, Nat.add_sub_cancel_left, State.regBlock_getD s x k hk]

/-- The register after `V[k]` has the next number, unless `k` is 15. -/
theorem nibble_succ_toNat {k x : Nibble} (h : k.toNat + 1 ≤ x.toNat) : (k + 1#4).toNat = k.toNat + 1 := by
  have hx : x.toNat < 16 := x.isLt
  rw [BitVec.toNat_add]
  exact Nat.mod_eq_of_lt (by simp; omega)

/-- Settles O16: the two bytes at the next `PC` are the registers `k` and `k + 1` of the block. -/
theorem storeIsFetchedNext : Obligations.StoreIsFetchedNext := by
  unfold Obligations.StoreIsFetchedNext
  intro s x k hk hin hpc
  refine ⟨_, exec_storeRegs x s, ?_⟩
  have hnext : (s.pc + 2#16).toNat = s.i.toNat + k.toNat := by rw [pc_add_two, hpc]
  have hsucc := nibble_succ_toNat hk
  have hhi := s.memRead_store_regBlock (a := s.i.toNat) (Nat.le_of_succ_le hk) (Nat.le_of_succ_le hin)
  have hlo := s.memRead_store_regBlock (a := s.i.toNat) (k := k + 1#4) (hsucc ▸ hk) (by rw [hsucc]; exact hin)
  rw [hsucc, ← Nat.add_assoc] at hlo
  simp only [fetchWord_toNat, State.setPc_pc, State.setPc_memRead, hnext, hhi, hlo]

end Sys2Proof.Machine
end

section
/-! PROOFS. The decoder and the encoder are inverse to each other on the recognized shapes, but for the low nibble that
families 5 and 9 ignore (R89 to R92). -/

namespace Sys2Proof.Machine

/-! ### Decoding an encoded word -/

/-- Settles O46, by the format of the instruction's word (R82): the format's fields read back what was put together,
and the family and selector choose the instruction. -/
theorem decodeOfEncode : Obligations.DecodeOfEncode := by
  unfold Obligations.DecodeOfEncode
  intro i
  cases i with
  | cls | ret | unrecognized => decide
  | jp nnn | call nnn | ldI nnn | jpV0 nnn => simp [encode, decode, fields_encodeA]
  | seImm x kk | sneImm x kk | ldImm x kk | addImm x kk | rnd x kk => simp [encode, decode, fields_encodeXK]
  | seReg x y | sneReg x y | drw x y n => simp [encode, decode, fields_encodeXYN]
  | ldReg x y | orReg x y | andReg x y | xorReg x y | addReg x y | sub x y | shr x y | subn x y | shl x y =>
    simp [encode, decode, decodeFamily8, fields_encodeXYN]
  | skp x | sknp x => simp [encode, decode, decodeFamilyE, fields_encodeXK]
  | ldVxDt x | ldVxK x | ldDtVx x | ldStVx x | addI x | ldF x | ldB x | storeRegs x | loadRegs x =>
    simp [encode, decode, decodeFamilyF, fields_encodeXK]

/-! ### A word is its fields put together -/

section
variable {w : Word} {f n : Nibble} {kk : Byte}

theorem encodeA_of_fields (hF : (fieldF w).toNat = f.toNat) : encodeA f (fieldNNN w) = w := by
  apply BitVec.eq_of_toNat_eq
  rw [encodeA_toNat, ← hF, fieldF_toNat, fieldNNN_toNat]; omega

theorem encodeXK_of_fields (hF : (fieldF w).toNat = f.toNat) (hKK : (fieldKK w).toNat = kk.toNat) :
    encodeXK f (fieldX w) kk = w := by
  apply BitVec.eq_of_toNat_eq
  rw [encodeXK_toNat, ← hF, ← hKK, fieldF_toNat, fieldX_toNat, fieldKK_toNat]; omega

theorem encodeXYN_of_fields (hF : (fieldF w).toNat = f.toNat) (hN : (fieldN w).toNat = n.toNat) :
    encodeXYN f (fieldX w) (fieldY w) n = w := by
  apply BitVec.eq_of_toNat_eq
  rw [encodeXYN_toNat, ← hF, ← hN, fieldF_toNat, fieldX_toNat, fieldY_toNat, fieldN_toNat]; omega

/-- The mask of a family leaves the family. -/
theorem and_family (hF : (fieldF w).toNat = f.toNat) : w &&& 0xF000#16 = f ++ 0x0#4 ++ 0x0#4 ++ 0x0#4 := by
  have hw := encodeXYN_of_fields hF rfl
  rw [← hw, Laws.OpcodeMap.encodeXYN_and_family]

/-- The canonical word of families 5 and 9 (R89). -/
theorem and_ignored_nibble (hF : (fieldF w).toNat = f.toNat) :
    w &&& 0xFFF0#16 = encodeXYN f (fieldX w) (fieldY w) 0x0#4 := by
  conv_lhs => rw [← encodeXYN_of_fields hF rfl]
  rw [encodeXYN, show (0xFFF0#16 : Word) = 0xF#4 ++ 0xF#4 ++ 0xF#4 ++ 0x0#4 by decide, BitVec.and_append,
    BitVec.and_append, BitVec.and_append]
  simp [encodeXYN, Laws.OpcodeMap.nibble_and_ones]

end

/-! ### Encoding a decoded word -/

section
variable {w : Word}

theorem encode_decodeFamily0 (h : decodeFamily0 w ≠ .unrecognized) : encode (decodeFamily0 w) = w := by
  unfold decodeFamily0 at h ⊢
  split_ifs at h ⊢ with hcls hret
  · exact hcls.symm
  · exact hret.symm
  · exact absurd rfl h

theorem encode_decodeFamily8 (hF : (fieldF w).toNat = 0x8) (h : decodeFamily8 w ≠ .unrecognized) :
    encode (decodeFamily8 w) = w := by
  unfold decodeFamily8 at h ⊢
  split at h
  case h_10 => exact absurd rfl h
  all_goals next hN => exact encodeXYN_of_fields hF hN

theorem encode_decodeFamilyE (hF : (fieldF w).toNat = 0xE) (h : decodeFamilyE w ≠ .unrecognized) :
    encode (decodeFamilyE w) = w := by
  unfold decodeFamilyE at h ⊢
  split at h
  case h_3 => exact absurd rfl h
  all_goals next hKK => exact encodeXK_of_fields hF hKK

theorem encode_decodeFamilyF (hF : (fieldF w).toNat = 0xF) (h : decodeFamilyF w ≠ .unrecognized) :
    encode (decodeFamilyF w) = w := by
  unfold decodeFamilyF at h ⊢
  split at h
  case h_10 => exact absurd rfl h
  all_goals next hKK => exact encodeXK_of_fields hF hKK

/-- Outside families 5 and 9 the decoder loses no bit of a recognized word. -/
theorem encode_decode (h5 : (fieldF w).toNat ≠ 0x5) (h9 : (fieldF w).toNat ≠ 0x9) (h : decode w ≠ .unrecognized) :
    encode (decode w) = w := by
  unfold decode at h ⊢
  split at h
  case h_1 => exact encode_decodeFamily0 h
  case h_2 hF | h_3 hF | h_11 hF | h_12 hF => exact encodeA_of_fields hF
  case h_4 hF | h_5 hF | h_7 hF | h_8 hF | h_13 hF => exact encodeXK_of_fields hF rfl
  case h_6 hF => exact absurd hF h5
  case h_9 hF => exact encode_decodeFamily8 hF h
  case h_10 hF => exact absurd hF h9
  case h_14 hF => exact encodeXYN_of_fields hF rfl
  case h_15 hF => exact encode_decodeFamilyE hF h
  case h_16 =>
    have hF : (fieldF w).toNat = 0xF := by simp only [imp_false] at *; omega
    exact encode_decodeFamilyF hF h

end

/-- The cases of a decoding: no shape, the two families whose low nibble is lost (R89), or no bit of the word is lost. -/
theorem decode_cases (w : Word) :
    decode w = .unrecognized ∨
    ((fieldF w).toNat = 0x5 ∧ decode w = .seReg (fieldX w) (fieldY w)) ∨
    ((fieldF w).toNat = 0x9 ∧ decode w = .sneReg (fieldX w) (fieldY w)) ∨
    ((fieldF w).toNat ≠ 0x5 ∧ (fieldF w).toNat ≠ 0x9 ∧ encode (decode w) = w) := by
  by_cases h : decode w = .unrecognized
  · exact .inl h
  by_cases h5 : (fieldF w).toNat = 0x5
  · exact .inr (.inl ⟨h5, by simp [decode, h5]⟩)
  by_cases h9 : (fieldF w).toNat = 0x9
  · exact .inr (.inr (.inl ⟨h9, by simp [decode, h9]⟩))
  · exact .inr (.inr (.inr ⟨h5, h9, encode_decode h5 h9 h⟩))

/-- Settles O47: the word is put together from the fields the decoder took it apart into. -/
theorem encodeOfDecode : Obligations.EncodeOfDecode := by
  unfold Obligations.EncodeOfDecode
  intro w h
  rw [← fieldF_toNat]
  obtain hdec | ⟨h5, hdec⟩ | ⟨h9, hdec⟩ | ⟨h5, h9, henc⟩ := decode_cases w
  · rw [hdec] at h; cases h
  · rw [if_pos (.inl h5), hdec]; exact (and_ignored_nibble h5).symm
  · rw [if_pos (.inr h9), hdec]; exact (and_ignored_nibble h9).symm
  · rw [if_neg (not_or.mpr ⟨h5, h9⟩), henc]

end Sys2Proof.Machine
end

section
/-! PROOFS. Which words the decoder recognizes, by the opcode map (R90) and by arithmetic on the word (R93). -/

namespace Sys2Proof.Machine

/-! ### Rows of the opcode map -/

/-- The encoded word of every instruction selects the instruction's row (R90). -/
theorem encode_selects_row (i : Instr) : encode i &&& (opcodeRow i).2 = (opcodeRow i).1 := by
  cases i
  exacts [Laws.OpcodeMap.cls, Laws.OpcodeMap.ret, Laws.OpcodeMap.unrecognized, Laws.OpcodeMap.jp _,
    Laws.OpcodeMap.call _, Laws.OpcodeMap.seImm _ _, Laws.OpcodeMap.sneImm _ _, Laws.OpcodeMap.seReg _ _,
    Laws.OpcodeMap.ldImm _ _, Laws.OpcodeMap.addImm _ _, Laws.OpcodeMap.ldReg _ _, Laws.OpcodeMap.orReg _ _,
    Laws.OpcodeMap.andReg _ _, Laws.OpcodeMap.xorReg _ _, Laws.OpcodeMap.addReg _ _, Laws.OpcodeMap.sub _ _,
    Laws.OpcodeMap.shr _ _, Laws.OpcodeMap.subn _ _, Laws.OpcodeMap.shl _ _, Laws.OpcodeMap.sneReg _ _,
    Laws.OpcodeMap.ldI _, Laws.OpcodeMap.jpV0 _, Laws.OpcodeMap.rnd _ _, Laws.OpcodeMap.drw _ _ _,
    Laws.OpcodeMap.skp _, Laws.OpcodeMap.sknp _, Laws.OpcodeMap.ldVxDt _, Laws.OpcodeMap.ldVxK _,
    Laws.OpcodeMap.ldDtVx _, Laws.OpcodeMap.ldStVx _, Laws.OpcodeMap.addI _, Laws.OpcodeMap.ldF _,
    Laws.OpcodeMap.ldB _, Laws.OpcodeMap.storeRegs _, Laws.OpcodeMap.loadRegs _]

/-- Only `SYS` has its row (R88). -/
theorem opcodeRow_eq_unrecognized {i : Instr} (h : opcodeRow i = opcodeRow .unrecognized) : i = .unrecognized := by
  cases i with
  | unrecognized => rfl
  | _ => exact absurd h (by simp [opcodeRow])

theorem fieldF_and (w m : Word) : fieldF (w &&& m) = fieldF w &&& fieldF m := BitVec.extractLsb'_and

theorem fieldN_and (w m : Word) : fieldN (w &&& m) = fieldN w &&& fieldN m := BitVec.extractLsb'_and

theorem fieldKK_and (w m : Word) : fieldKK (w &&& m) = fieldKK w &&& fieldKK m := BitVec.extractLsb'_and

/-! Words that agree under a mask agree in every field that the mask covers. -/

section
variable {w v m : Word}

theorem fieldF_of_and (hm : fieldF m = 15#4) (h : w &&& m = v &&& m) : fieldF w = fieldF v := by
  simpa only [fieldF_and, hm, Laws.OpcodeMap.nibble_and_ones] using congrArg fieldF h

theorem fieldN_of_and (hm : fieldN m = 15#4) (h : w &&& m = v &&& m) : fieldN w = fieldN v := by
  simpa only [fieldN_and, hm, Laws.OpcodeMap.nibble_and_ones] using congrArg fieldN h

theorem fieldKK_of_and (hm : fieldKK m = 255#8) (h : w &&& m = v &&& m) : fieldKK w = fieldKK v := by
  simpa only [fieldKK_and, hm, Laws.OpcodeMap.byte_and_ones] using congrArg fieldKK h

end

/-- A word that decodes to a recognized shape matches the row of the shape: either it is the shape's encoded
word, or the shape's mask covers only the family. -/
theorem decode_selects_row {w : Word} (h : decode w ≠ .unrecognized) :
    w &&& (opcodeRow (decode w)).2 = (opcodeRow (decode w)).1 := by
  obtain hdec | ⟨h5, hdec⟩ | ⟨h9, hdec⟩ | ⟨-, -, henc⟩ := decode_cases w
  · exact absurd hdec h
  · rw [hdec]; exact and_family (f := 0x5#4) h5
  · rw [hdec]; exact and_family (f := 0x9#4) h9
  · have hrow := encode_selects_row (decode w)
    rwa [henc] at hrow

/-- A word that matches the row of a recognized shape decodes to a shape of that row: the mask covers the family and
the selector, which are all that the decoder looks at. -/
theorem opcodeRow_decode_of_match {w : Word} {i : Instr} (hi : i ≠ .unrecognized)
    (h : w &&& (opcodeRow i).2 = (opcodeRow i).1) : opcodeRow (decode w) = opcodeRow i := by
  rw [← encode_selects_row i] at h
  cases i with
  | unrecognized => exact absurd rfl hi
  | cls | ret =>
    obtain rfl : w = _ := BitVec.and_allOnes.symm.trans h
    decide
  | jp | call | seImm | sneImm | seReg | ldImm | addImm | sneReg | ldI | jpV0 | rnd | drw =>
    have hF := fieldF_of_and (m := 0xF000#16) (by decide) h
    simp [decode, hF, opcodeRow, encode, fields_encodeA, fields_encodeXK, fields_encodeXYN]
  | ldReg | orReg | andReg | xorReg | addReg | sub | shr | subn | shl =>
    have hF := fieldF_of_and (m := 0xF00F#16) (by decide) h
    have hN := fieldN_of_and (m := 0xF00F#16) (by decide) h
    simp [decode, hF, decodeFamily8, hN, opcodeRow, encode, fields_encodeXYN]
  | skp | sknp =>
    have hF := fieldF_of_and (m := 0xF0FF#16) (by decide) h
    have hKK := fieldKK_of_and (m := 0xF0FF#16) (by decide) h
    simp [decode, hF, decodeFamilyE, hKK, opcodeRow, encode, fields_encodeXK]
  | ldVxDt | ldVxK | ldDtVx | ldStVx | addI | ldF | ldB | storeRegs | loadRegs =>
    have hF := fieldF_of_and (m := 0xF0FF#16) (by decide) h
    have hKK := fieldKK_of_and (m := 0xF0FF#16) (by decide) h
    simp [decode, hF, decodeFamilyF, hKK, opcodeRow, encode, fields_encodeXK]

/-- A word of family 0 is unrecognized, `CLS` and `RET` apart (R88). -/
theorem decode_of_match_sys {w : Word} (h : w &&& (opcodeRow .unrecognized).2 = (opcodeRow .unrecognized).1)
    (hcls : w ≠ 0x00E0#16) (hret : w ≠ 0x00EE#16) : decode w = .unrecognized := by
  rw [← encode_selects_row] at h
  have hF : fieldF w = fieldF (encode .unrecognized) := fieldF_of_and (by decide) h
  have hzero : fieldF (encode .unrecognized) = 0x0#4 := by decide
  simp [decode, hF, hzero, decodeFamily0, hcls, hret]

/-- Settles O48: both directions for the recognized shapes; a word of no row would match the row it decodes to. -/
theorem decodeSelectsOpcodeRow : Obligations.DecodeSelectsOpcodeRow := by
  unfold Obligations.DecodeSelectsOpcodeRow
  refine ⟨fun w => ?_, fun w i hi h => ?_, fun w => decode_of_match_sys, fun w hnone => ?_⟩
  · exact or_iff_not_imp_right.mpr decode_selects_row
  · have hrow := opcodeRow_decode_of_match hi h
    exact ⟨fun hw => hi (opcodeRow_eq_unrecognized (by rw [← hrow, hw])), hrow⟩
  · by_contra hw
    exact hnone (decode w) hw (decode_selects_row hw)

/-! ### Operand fields -/

/-- The operand fields of an encoded word are the instruction's operands. -/
theorem fieldsOf_encode (i : Instr) : fieldsOf (encode i) i := by
  cases i with
  | cls | ret | unrecognized => trivial
  | jp nnn | call nnn | ldI nnn | jpV0 nnn => simp only [fieldsOf, encode, ← fieldNNN_toNat, fields_encodeA]
  | seImm x kk | sneImm x kk | ldImm x kk | addImm x kk | rnd x kk =>
    simp only [fieldsOf, encode, ← fieldX_toNat, ← fieldKK_toNat, fields_encodeXK, and_self]
  | skp x | sknp x | ldVxDt x | ldVxK x | ldDtVx x | ldStVx x | addI x | ldF x | ldB x | storeRegs x | loadRegs x =>
    simp only [fieldsOf, encode, ← fieldX_toNat, fields_encodeXK]
  | seReg x y | sneReg x y | ldReg x y | orReg x y | andReg x y | xorReg x y | addReg x y | sub x y | shr x y
  | subn x y | shl x y =>
    simp only [fieldsOf, encode, ← fieldX_toNat, ← fieldY_toNat, fields_encodeXYN, and_self]
  | drw x y n =>
    simp only [fieldsOf, encode, ← fieldX_toNat, ← fieldY_toNat, ← fieldN_toNat, fields_encodeXYN, and_self]

/-- Settles O49: the word is the encoded word of its decoding, or its decoding is made of the fields `X` and `Y`. -/
theorem decodeExtractsFields : Obligations.DecodeExtractsFields := by
  unfold Obligations.DecodeExtractsFields
  intro w
  obtain hdec | ⟨-, hdec⟩ | ⟨-, hdec⟩ | ⟨-, -, henc⟩ := decode_cases w
  · rw [hdec]; trivial
  · rw [hdec]; exact ⟨fieldX_toNat w, fieldY_toNat w⟩
  · rw [hdec]; exact ⟨fieldX_toNat w, fieldY_toNat w⟩
  · have hfields := fieldsOf_encode (decode w)
    rwa [henc] at hfields

/-! ### The unrecognized words -/

section
variable (w : Word)

theorem decodeFamily0_eq_unrecognized :
    decodeFamily0 w = .unrecognized ↔ w.toNat ≠ 0x00E0 ∧ w.toNat ≠ 0x00EE := by
  unfold decodeFamily0
  split_ifs <;> simp_all [← BitVec.toNat_inj]

theorem decodeFamily8_eq_unrecognized :
    decodeFamily8 w = .unrecognized ↔ w.toNat % 16 ∈ [0x8, 0x9, 0xA, 0xB, 0xC, 0xD, 0xF] := by
  rw [← fieldN_toNat]
  unfold decodeFamily8
  split
  case h_10 =>
    simp only [imp_false, List.mem_cons, List.not_mem_nil, or_false, true_iff] at *
    omega
  all_goals next hN => simp [hN]

theorem decodeFamilyE_eq_unrecognized : decodeFamilyE w = .unrecognized ↔ w.toNat % 256 ∉ [0x9E, 0xA1] := by
  rw [← fieldKK_toNat]
  unfold decodeFamilyE
  split
  case h_3 => simp_all
  all_goals next hKK => simp [hKK]

theorem decodeFamilyF_eq_unrecognized :
    decodeFamilyF w = .unrecognized ↔ w.toNat % 256 ∉ [0x07, 0x0A, 0x15, 0x18, 0x1E, 0x29, 0x33, 0x55, 0x65] := by
  rw [← fieldKK_toNat]
  unfold decodeFamilyF
  split
  case h_10 => simp_all
  all_goals next hKK => simp [hKK]

/-- R93's list, family by family: outside families 0, 8, E and F every word is recognized. -/
theorem decode_eq_unrecognized : decode w = .unrecognized ↔ unrecognizedWord w := by
  unfold unrecognizedWord decode
  rw [← decodeFamily0_eq_unrecognized, ← decodeFamily8_eq_unrecognized, ← decodeFamilyE_eq_unrecognized,
    ← decodeFamilyF_eq_unrecognized, ← fieldF_toNat]
  split
  case h_16 =>
    have hF : (fieldF w).toNat = 0xF := by simp only [imp_false] at *; omega
    simp [hF]
  all_goals next hF => simp [hF]

end

theorem exec_unrecognized (s : State) : exec .unrecognized s = .next s.advance := rfl

/-- Settles O50: the list of R93, and the one meaning that all its words share. -/
theorem unrecognizedWordsAreExactlyThese : Obligations.UnrecognizedWordsAreExactlyThese := by
  unfold Obligations.UnrecognizedWordsAreExactlyThese pcPlus
  intro w
  refine ⟨decode_eq_unrecognized w, fun hw s => ⟨s.advance, ?_, ?_, ?_⟩⟩
  · rw [execWord, (decode_eq_unrecognized w).mpr hw, exec_unrecognized]
  · rw [exec_pc rfl (exec_unrecognized s), pc_add_two]
  · exact exec_sameBut (exec_unrecognized s)

/-! ### Worked decodings -/

/-- Settles O51, by running the decoder on each word. -/
theorem workedDecodings : Obligations.WorkedDecodings := by
  unfold Obligations.WorkedDecodings
  decide

end Sys2Proof.Machine
end

section
/-! PROOFS. The cycle (R110 to R114): the timers tick before the instruction, and a blocked core only ticks. -/

namespace Sys2Proof.Machine

/-! ### The timer tick -/

theorem tick_dt_toNat (s : State) : s.tick.dt.toNat = s.dt.toNat - 1 := countDown_toNat s.dt

theorem tick_st_toNat (s : State) : s.tick.st.toNat = s.st.toNat - 1 := countDown_toNat s.st

/-- The pulse comes in exactly the ticks that find `ST = 1` (R113). -/
theorem tick_soundPulse (s : State) : s.tick.soundPulse = true ↔ s.st.toNat = 1 := by
  simp [← BitVec.toNat_inj]

/-! ### What a cycle leaves of its tick -/

/-- A part that the cycle's instruction does not write holds what the tick left in it (R112). -/
theorem cycle_keeps_ticked {s t : State} (h : cycle s = .next t) {p : Part}
    (hp : ∀ i, s.executes i → p ∉ writtenParts i) : p.same s.tick t := by
  obtain ⟨r, -, hblocked⟩ | ⟨i, hi, hexec⟩ := cycle_cases s
  · cases hblocked.symm.trans h
    exact sameBut.refl [] s.tick p List.not_mem_nil
  · exact exec_sameBut (hexec.symm.trans h) p (hp i hi)

/-- Only `LD DT, Vx` writes the delay timer (R27). -/
theorem delayTimer_mem_writtenParts {i : Instr} : .delayTimer ∈ writtenParts i ↔ ∃ x, i = .ldDtVx x := by
  cases i <;> simp [writtenParts]

/-- Only `LD ST, Vx` writes the sound timer (R28). -/
theorem soundTimer_mem_writtenParts {i : Instr} : .soundTimer ∈ writtenParts i ↔ ∃ x, i = .ldStVx x := by
  cases i <;> simp [writtenParts]

section
variable {s t : State} (h : cycle s = .next t)
include h

theorem cycle_soundPulse : t.soundPulse = true ↔ s.st.toNat = 1 := by
  have hkept : t.soundPulse = s.tick.soundPulse :=
    cycle_keeps_ticked h (p := .pulse) fun i _ => (pulse_not_mem_writtenParts i).1
  rw [hkept, tick_soundPulse]

theorem cycle_dt_toNat (hdt : ∀ x, ¬ s.executes (.ldDtVx x)) : t.dt.toNat = s.dt.toNat - 1 := by
  have hkept : t.dt = s.tick.dt := cycle_keeps_ticked h (p := .delayTimer) fun i hi hmem => by
    obtain ⟨x, rfl⟩ := delayTimer_mem_writtenParts.mp hmem
    exact hdt x hi
  rw [hkept, tick_dt_toNat]

theorem cycle_st_toNat (hst : ∀ x, ¬ s.executes (.ldStVx x)) : t.st.toNat = s.st.toNat - 1 := by
  have hkept : t.st = s.tick.st := cycle_keeps_ticked h (p := .soundTimer) fun i hi hmem => by
    obtain ⟨x, rfl⟩ := soundTimer_mem_writtenParts.mp hmem
    exact hst x hi
  rw [hkept, tick_st_toNat]

end

/-- A count that stops at zero is subtraction of natural numbers. -/
theorem pred_stopping_at_zero (n : Nat) : (if n = 0 then 0 else n - 1) = n - 1 := by
  split <;> omega

/-- Settles O7: the tick sets the timers and the pulse, and the instruction writes a timer only where it is excluded. -/
theorem cycleTicksBothTimers : Obligations.CycleTicksBothTimers := by
  unfold Obligations.CycleTicksBothTimers
  intro s t h
  simp only [pred_stopping_at_zero]
  exact ⟨cycle_soundPulse h, cycle_dt_toNat h, cycle_st_toNat h⟩

/-! ### A step with no host operation pending -/

theorem step_of_hostOps_nil {s : State} (h : s.hostOps = []) : step s = cycle s := by
  obtain ⟨-, hcycle⟩ | ⟨op, rest, hcons, -⟩ := step_cases (s := s) rfl
  · exact hcycle
  · exact absurd (h.symm.trans hcons) (List.cons_ne_nil op rest).symm

/-- Settles O5: the step is the cycle, which only ticks in a blocked core and else executes the decoded word. -/
theorem stepRunsDecodedInstruction : Obligations.StepRunsDecodedInstruction := by
  unfold Obligations.StepRunsDecodedInstruction
  intro s hops
  rw [step_of_hostOps_nil hops]
  exact ⟨fun r hr => cycle_blocked hr, fun i hw hi => cycle_executes ⟨hw, hi⟩⟩

/-! ### Timer and key instructions inside a cycle -/

section
variable (x : Nibble) (s : State)

theorem exec_ldVxDt : exec (.ldVxDt x) s = .next ((s.setReg x s.dt).setPc (s.pc + 2#16)) := rfl

theorem exec_ldDtVx : exec (.ldDtVx x) s = .next ((s.setDt (s.reg x)).setPc (s.pc + 2#16)) := rfl

theorem exec_ldStVx : exec (.ldStVx x) s = .next ((s.setSt (s.reg x)).setPc (s.pc + 2#16)) := rfl

theorem exec_ldVxK : exec (.ldVxK x) s = .next ((s.setWait (some x)).setPc (s.pc + 2#16)) := rfl

end

/-- Settles O9: each instruction runs on the state after the tick. -/
theorem timersTickBeforeExecution : Obligations.TimersTickBeforeExecution := by
  unfold Obligations.TimersTickBeforeExecution pcPlus
  intro s x
  refine ⟨fun h => ⟨_, (cycle_executes h).trans (exec_ldVxDt x s.tick), ?_, tick_dt_toNat s⟩,
    fun h => ⟨_, (cycle_executes h).trans (exec_ldDtVx x s.tick), rfl⟩,
    fun h => ⟨_, (cycle_executes h).trans (exec_ldStVx x s.tick), rfl, tick_soundPulse s⟩,
    fun h => ⟨_, (cycle_executes h).trans (exec_ldVxK x s.tick), rfl, pc_add_two s.pc⟩, fun h => ?_⟩
  · rw [State.setPc_reg, State.reg_setReg_same, tick_dt_toNat]
  · obtain ⟨r, hr⟩ := Option.ne_none_iff_exists'.mp h
    exact ⟨s.tick, cycle_blocked hr, rfl, tick_dt_toNat s, tick_st_toNat s, tick_soundPulse s⟩

/-! ### A blocked run -/

theorem Part.same.trans {p : Part} {s t u : State} (hst : p.same s t) (htu : p.same t u) : p.same s u := by
  cases p <;> simp_all [Part.same]

theorem sameBut.trans {ps : List Part} {s t u : State} (hst : sameBut ps s t) (htu : sameBut ps t u) :
    sameBut ps s u := fun p hp => (hst p hp).trans (htu p hp)

/-- A blocked core whose host asks for nothing does nothing but tick (R114). -/
theorem core_run_blocked (n : Nat) {s : State} {r : Nibble} (hw : s.wait = some r) (hops : s.hostOps = []) :
    Sys2Proof.core.run n s = .next (State.tick^[n] s) := by
  induction n generalizing s with
  | zero => rfl
  | succ n ih =>
    have hstep : step s = .next s.tick := (step_of_hostOps_nil hops).trans (cycle_blocked hw)
    rw [core_run_succ n hstep, Function.iterate_succ_apply]
    exact ih hw hops

section
variable (n : Nat) (s : State)

theorem iterate_tick_sameBut : sameBut [.delayTimer, .soundTimer, .pulse, .pulseCount] s (State.tick^[n] s) := by
  induction n with
  | zero => exact sameBut.refl _ s
  | succ n ih =>
    rw [Function.iterate_succ_apply']
    exact ih.trans (tick_sameBut _)

theorem iterate_tick_pc : (State.tick^[n] s).pc = s.pc := by
  induction n with
  | zero => rfl
  | succ n ih => rw [Function.iterate_succ_apply']; exact ih

theorem iterate_tick_dt_toNat : (State.tick^[n] s).dt.toNat = s.dt.toNat - n := by
  induction n with
  | zero => rfl
  | succ n ih => rw [Function.iterate_succ_apply', tick_dt_toNat, ih, Nat.sub_sub]

theorem iterate_tick_st_toNat : (State.tick^[n] s).st.toNat = s.st.toNat - n := by
  induction n with
  | zero => rfl
  | succ n ih => rw [Function.iterate_succ_apply', tick_st_toNat, ih, Nat.sub_sub]

/-- The last of the ticks finds `ST` down by the ticks before it. -/
theorem iterate_tick_soundPulse : (State.tick^[n + 1] s).soundPulse = true ↔ s.st.toNat = n + 1 := by
  rw [Function.iterate_succ_apply', tick_soundPulse, iterate_tick_st_toNat]
  omega

/-- The one pulse comes in tick number `ST`. -/
theorem iterate_tick_pulses :
    (State.tick^[n] s).pulses = s.pulses + if 1 ≤ s.st.toNat ∧ s.st.toNat ≤ n then 1 else 0 := by
  induction n with
  | zero => rw [if_neg (by omega)]; rfl
  | succ n ih =>
    have hlast := iterate_tick_soundPulse n s
    rw [Function.iterate_succ_apply'] at hlast ⊢
    simp only [tick_counts_pulse, hlast, ih]
    split_ifs <;> omega

end

/-- Settles O11: the run is `n` ticks. -/
theorem blockedRunCountsDown : Obligations.BlockedRunCountsDown := by
  unfold Obligations.BlockedRunCountsDown
  intro n s r hw hops
  have hframe := iterate_tick_sameBut n s
  have hwait : (State.tick^[n] s).wait = s.wait := hframe .keyWait (by decide)
  refine ⟨State.tick^[n] s, core_run_blocked n hw hops, hwait.trans hw, iterate_tick_pc n s,
    iterate_tick_dt_toNat n s, iterate_tick_st_toNat n s, fun hn => ?_, iterate_tick_pulses n s, hframe⟩
  obtain ⟨m, rfl⟩ := Nat.exists_eq_add_one.mpr hn
  exact iterate_tick_soundPulse m s

end Sys2Proof.Machine
end

section
/-! PROOFS. `SYS` and every other unrecognized word are no-operations (R118). -/

namespace Sys2Proof.Machine

theorem encodeA_injective (f : Nibble) : Function.Injective (encodeA f) := fun a b h => by
  have hfields := congrArg fieldNNN h
  rwa [(fields_encodeA f a).2, (fields_encodeA f b).2] at hfields

/-- A word of family 0 is `CLS`, `RET` or unrecognized (R88, R90). -/
theorem decode_encodeA_sys {nnn : Addr} (hcls : nnn ≠ 0x0E0#12) (hret : nnn ≠ 0x0EE#12) :
    decode (encodeA 0x0#4 nnn) = .unrecognized := by
  have hF : fieldF (encodeA 0x0#4 nnn) = 0x0#4 := (fields_encodeA 0x0#4 nnn).1
  exact decode_of_match_sys (and_family (congrArg BitVec.toNat hF)) ((encodeA_injective 0x0#4).ne hcls)
    ((encodeA_injective 0x0#4).ne hret)

theorem exec_unrecognized_noOp (s : State) : ∃ t, exec .unrecognized s = .next t ∧ pcPlus 2 s t ∧ sameBut [] s t :=
  ⟨s.advance, exec_unrecognized s, pc_add_two s.pc, exec_sameBut (exec_unrecognized s)⟩

/-- Settles O18: the no-operation of the one instruction that all these words decode to. -/
theorem sysAndUnrecognizedAreNoOps : Obligations.SysAndUnrecognizedAreNoOps := by
  unfold Obligations.SysAndUnrecognizedAreNoOps
  refine ⟨exec_unrecognized_noOp, fun nnn => decode_encodeA_sys, fun w s hw => ?_⟩
  rw [execWord, hw]
  exact exec_unrecognized_noOp s

end Sys2Proof.Machine
end

section
/-! PROOFS. Control transfer (41_flow.md): returns, calls, jumps and the skips that compare registers. -/

namespace Sys2Proof.Machine

/-! ### `RET` and `CALL` -/

/-- `SP` down by one as the remainder of an integer, which R130 takes also at `SP = 0`. -/
theorem spDown_toNat_int (b : Byte) : ((spDown b).toNat : Int) = ((b.toNat : Int) - 1) % 16 := by
  rw [spDown_toNat]; omega

theorem exec_ret (s : State) :
    exec .ret s = .next ((s.setSp (spDown s.sp)).setPc (s.slot (spDown s.sp) + 2#16)) := rfl

/-- Settles O19: `SP` and `PC` are the only fields written, so every slot holds what it held. -/
theorem retReturnsPastTheCall : Obligations.RetReturnsPastTheCall := by
  unfold Obligations.RetReturnsPastTheCall
  intro s
  exact ⟨_, exec_ret s, spDown_toNat_int s.sp, pc_add_two (s.slot (spDown s.sp)), fun j => by simp,
    exec_sameBut (exec_ret s)⟩

theorem addrOperand_toNat (nnn : Addr) : (addrOperand nnn).toNat = nnn.toNat :=
  BitVec.toNat_setWidth_of_le (by decide)

theorem exec_call (nnn : Addr) (s : State) :
    exec (.call nnn) s = .next (((s.setSlot s.sp s.pc).setSp (spUp s.sp)).setPc (addrOperand nnn)) := rfl

/-- Below 16, slots with different numbers are different slots (R26). -/
theorem State.slot_setSlot_ne (s : State) {j q : Byte} (hj : j.toNat ≤ 15) (hq : q.toNat ≤ 15) (hne : q ≠ j)
    (w : Word) : (s.setSlot j w).slot q = s.slot q := by
  have hmod : ¬ q.toNat % 16 = j.toNat % 16 := fun h => hne (BitVec.eq_of_toNat_eq (by omega))
  rw [State.slot_setSlot, if_neg hmod]

/-- Settles O20: the one slot written is that of the old `SP`. -/
theorem callPushesItsOwnAddress : Obligations.CallPushesItsOwnAddress := by
  unfold Obligations.CallPushesItsOwnAddress
  intro nnn s hsp
  exact ⟨_, exec_call nnn s, by simp, spUp_toNat s.sp, addrOperand_toNat nnn,
    fun j hj hne => s.slot_setSlot_ne hsp hj hne s.pc, exec_sameBut (exec_call nnn s)⟩

/-! ### Jumps -/

theorem exec_jp (nnn : Addr) (s : State) : exec (.jp nnn) s = .next (s.setPc (addrOperand nnn)) := rfl

theorem exec_jpV0 (nnn : Addr) (s : State) :
    exec (.jpV0 nnn) s = .next (s.setPc (addrOperand nnn + wordOfByte (s.reg 0x0#4))) := rfl

theorem wordOfByte_toNat (b : Byte) : (wordOfByte b).toNat = b.toNat :=
  BitVec.toNat_setWidth_of_le (by decide)

/-- An address plus a byte is at most 0x0FFF + 0xFF, so 16 bits hold it (R132). -/
theorem addrOperand_add_wordOfByte_toNat (nnn : Addr) (b : Byte) :
    (addrOperand nnn + wordOfByte b).toNat = nnn.toNat + b.toNat := by
  have := nnn.isLt; have := b.isLt
  rw [BitVec.toNat_add, addrOperand_toNat, wordOfByte_toNat, Nat.mod_eq_of_lt (by omega)]

/-- Settles O22: only `PC` is written, and the sum of R132 does not overflow. -/
theorem jumpsSetPc : Obligations.JumpsSetPc := by
  unfold Obligations.JumpsSetPc
  exact ⟨fun nnn s => ⟨_, exec_jp nnn s, addrOperand_toNat nnn, exec_sameBut (exec_jp nnn s)⟩,
    fun nnn s => ⟨_, exec_jpV0 nnn s, addrOperand_add_wordOfByte_toNat nnn (s.reg 0x0#4),
      exec_sameBut (exec_jpV0 nnn s)⟩⟩

/-! ### Skips -/

/-- The skip of the model is the skip rule for the condition that its test decides (R138). -/
theorem pcSkip_skipIf (s : State) {c : Bool} {P : Prop} (hc : c = true ↔ P) : pcSkip P s (s.skipIf c) := by
  unfold pcSkip pcPlus
  refine ⟨fun hP => ?_, fun hP => ?_⟩
  · rw [hc.mpr hP]; exact pc_add_four s.pc
  · rw [Bool.eq_false_iff.mpr (hP ∘ hc.mp)]; exact pc_add_two s.pc

/-- An instruction that only skips: its test decides the condition, and nothing but `PC` is written. -/
theorem exec_skips {i : Instr} {s : State} {c : Bool} {P : Prop} (h : exec i s = .next (s.skipIf c))
    (hc : c = true ↔ P) : ∃ t, exec i s = .next t ∧ pcSkip P s t ∧ sameBut [] s t :=
  ⟨s.skipIf c, h, pcSkip_skipIf s hc, (sameBut_setPc _).mpr (sameBut.refl [] s)⟩

/-- Settles O23: each of the four is a skip on a test of equality. -/
theorem skipsCompareRegisters : Obligations.SkipsCompareRegisters := by
  unfold Obligations.SkipsCompareRegisters
  exact ⟨fun x kk s => exec_skips (i := .seImm x kk) rfl beq_iff_eq,
    fun x kk s => exec_skips (i := .sneImm x kk) rfl bne_iff_ne,
    fun x y s => exec_skips (i := .seReg x y) rfl beq_iff_eq,
    fun x y s => exec_skips (i := .sneReg x y) rfl bne_iff_ne⟩

end Sys2Proof.Machine
end

section
/-! PROOFS. Loads, arithmetic, logic, shifts and `RND` (42_alu.md). -/

namespace Sys2Proof.Machine

/-! ### Frames -/

section
variable {i : Instr} {s t : State} (hpc : transfersControl i = false) (h : exec i s = .next t)
include hpc h

/-- A plain instruction that writes no flag leaves `V[15]` to the frame, unless it is the destination (R153 to R156). -/
theorem exec_frame_of_noFlag (hflag : writesFlag i = false) :
    pcPlus 2 s t ∧ sameRegsBut (destinations i) s t ∧ sameBut (writtenParts i) s t :=
  ⟨plainInstructionsAdvanceByTwo i s t hpc h, fun _ hr => exec_reg_eq h hr fun _ => hflag, exec_sameBut h⟩

/-- A plain instruction, whether it writes the flag or not: at most its destinations and `V[15]` change (R22). -/
theorem exec_frame :
    pcPlus 2 s t ∧ sameRegsBut (destinations i ++ [15#4]) s t ∧ sameBut (writtenParts i) s t := by
  refine ⟨plainInstructionsAdvanceByTwo i s t hpc h, fun r hr => ?_, exec_sameBut h⟩
  obtain ⟨hdest, hne⟩ : r ∉ destinations i ∧ r ≠ flagReg := by simpa [flagReg] using hr
  exact exec_reg_eq h hdest fun e => absurd e hne

end

/-! ### Loads and immediate addition -/

section
variable (x y : Nibble) (kk : Byte) (s : State)

theorem exec_ldImm : exec (.ldImm x kk) s = .next (s.setReg x kk).advance := rfl

theorem exec_ldReg : exec (.ldReg x y) s = .next (s.setReg x (s.reg y)).advance := rfl

theorem exec_addImm : exec (.addImm x kk) s = .next (s.setReg x (addResult (s.reg x) kk)).advance := rfl

/-- The result of an instruction that writes one register. -/
theorem State.reg_setReg_advance (b : Byte) : (s.setReg x b).advance.reg x = b := s.reg_setReg_same x b

end

/-- Settles O24: the register written holds the operand. -/
theorem loadsCopyTheirOperand : Obligations.LoadsCopyTheirOperand := by
  unfold Obligations.LoadsCopyTheirOperand
  exact ⟨fun x kk s =>
      ⟨_, exec_ldImm x kk s, s.reg_setReg_advance x kk, exec_frame_of_noFlag rfl (exec_ldImm x kk s) rfl⟩,
    fun x y s =>
      ⟨_, exec_ldReg x y s, s.reg_setReg_advance x (s.reg y), exec_frame_of_noFlag rfl (exec_ldReg x y s) rfl⟩⟩

/-- Settles O25: the wrapped sum is written and no flag is. -/
theorem addImmediateWrapsWithoutFlag : Obligations.AddImmediateWrapsWithoutFlag := by
  unfold Obligations.AddImmediateWrapsWithoutFlag
  intro x kk s
  refine ⟨_, exec_addImm x kk s, ?_, exec_frame_of_noFlag rfl (exec_addImm x kk s) rfl⟩
  rw [State.reg_setReg_advance, addResult_toNat]

/-! ### Logic -/

section
variable (x y : Nibble) (s : State)

theorem exec_orReg : exec (.orReg x y) s = .next (s.setReg x (s.reg x ||| s.reg y)).advance := rfl

theorem exec_andReg : exec (.andReg x y) s = .next (s.setReg x (s.reg x &&& s.reg y)).advance := rfl

theorem exec_xorReg : exec (.xorReg x y) s = .next (s.setReg x (s.reg x ^^^ s.reg y)).advance := rfl

end

/-- Settles O26: the bits of the word operation are the operations on bits. -/
theorem logicIsBitwiseWithoutFlag : Obligations.LogicIsBitwiseWithoutFlag := by
  unfold Obligations.LogicIsBitwiseWithoutFlag
  refine ⟨fun x y s => ⟨_, exec_orReg x y s, fun j => ?_, exec_frame_of_noFlag rfl (exec_orReg x y s) rfl⟩,
    fun x y s => ⟨_, exec_andReg x y s, fun j => ?_, exec_frame_of_noFlag rfl (exec_andReg x y s) rfl⟩,
    fun x y s => ⟨_, exec_xorReg x y s, fun j => ?_, exec_frame_of_noFlag rfl (exec_xorReg x y s) rfl⟩⟩
  · rw [State.reg_setReg_advance, BitVec.getLsbD_or]
  · rw [State.reg_setReg_advance, BitVec.getLsbD_and]
  · rw [State.reg_setReg_advance, BitVec.getLsbD_xor]

/-! ### A result and a flag -/

section
variable (x y : Nibble) (s : State)

theorem exec_addReg : exec (.addReg x y) s =
    .next (s.setResultAndFlag x (addResult (s.reg x) (s.reg y)) (addFlag (s.reg x) (s.reg y))).advance := rfl

theorem exec_sub : exec (.sub x y) s =
    .next (s.setResultAndFlag x (subResult (s.reg x) (s.reg y)) (subFlag (s.reg x) (s.reg y))).advance := rfl

theorem exec_subn : exec (.subn x y) s =
    .next (s.setResultAndFlag x (subResult (s.reg y) (s.reg x)) (subFlag (s.reg y) (s.reg x))).advance := rfl

theorem exec_shr : exec (.shr x y) s =
    .next (s.setResultAndFlag x (shrResult (s.reg x)) (shrFlag (s.reg x))).advance := rfl

theorem exec_shl : exec (.shl x y) s =
    .next (s.setResultAndFlag x (shlResult (s.reg x)) (shlFlag (s.reg x))).advance := rfl

end

/-- The result stands in `V[X]` unless the flag has taken its place (R117). -/
theorem State.reg_setResultAndFlag_result (s : State) {x : Nibble} (hx : x ≠ 15#4) (b : Byte) (f : Bool) :
    (s.setResultAndFlag x b f).advance.reg x = b :=
  ((s.setReg x b).reg_setReg_ne hx (flagByte f)).trans (s.reg_setReg_same x b)

/-- The flag is written last, so it stands for every `X` (R117). -/
theorem State.reg_setResultAndFlag_flag (s : State) (x : Nibble) (b : Byte) (f : Bool) :
    (s.setResultAndFlag x b f).advance.reg 15#4 = flagByte f :=
  (s.setReg x b).reg_setReg_same flagReg (flagByte f)

theorem flagByte_addFlag_toNat (a b : Byte) :
    (flagByte (addFlag a b)).toNat = if a.toNat + b.toNat > 255 then 1 else 0 := by
  simp only [flagByte_toNat, addFlag_eq, decide_eq_true_eq]

theorem flagByte_subFlag_toNat (a b : Byte) :
    (flagByte (subFlag a b)).toNat = if a.toNat > b.toNat then 1 else 0 := by
  simp only [flagByte_toNat, subFlag_eq, decide_eq_true_eq]

theorem flagByte_shrFlag_toNat (a : Byte) : (flagByte (shrFlag a)).toNat = a.toNat % 2 := by
  simp only [flagByte_toNat, shrFlag, decide_eq_true_eq]
  split <;> omega

theorem flagByte_shlFlag_toNat (a : Byte) : (flagByte (shlFlag a)).toNat = a.toNat / 128 := by
  have := a.isLt
  simp only [flagByte_toNat, shlFlag, decide_eq_true_eq]
  split <;> omega

/-- Settles O27: the wrapped sum, and then the carry of the old operands. -/
theorem addRegistersSetsCarry : Obligations.AddRegistersSetsCarry := by
  unfold Obligations.AddRegistersSetsCarry
  intro x y s
  refine ⟨_, exec_addReg x y s, fun hx => ?_, ?_, exec_frame rfl (exec_addReg x y s)⟩
  · rw [State.reg_setResultAndFlag_result s hx, addResult_toNat]
  · rw [State.reg_setResultAndFlag_flag, flagByte_addFlag_toNat]

/-- A difference written as `SUB` and `SUBN` write it, of any two operands. -/
theorem exec_difference {i : Instr} {s : State} {x : Nibble} {a b : Byte}
    (h : exec i s = .next (s.setResultAndFlag x (subResult a b) (subFlag a b)).advance)
    (hpc : transfersControl i = false) :
    ∃ t, exec i s = .next t ∧ (x ≠ 15#4 → ((t.reg x).toNat : Int) = ((a.toNat : Int) - b.toNat) % 256) ∧
      (t.reg 15#4).toNat = (if a.toNat > b.toNat then 1 else 0) ∧
      pcPlus 2 s t ∧ sameRegsBut (destinations i ++ [15#4]) s t ∧ sameBut (writtenParts i) s t := by
  refine ⟨_, h, fun hx => ?_, ?_, exec_frame hpc h⟩
  · rw [State.reg_setResultAndFlag_result s hx, subResult_toNat]
  · rw [State.reg_setResultAndFlag_flag, flagByte_subFlag_toNat]

/-- Settles O28: `SUBN` is `SUB` with the operands exchanged. -/
theorem subtractionsSetStrictFlag : Obligations.SubtractionsSetStrictFlag := by
  unfold Obligations.SubtractionsSetStrictFlag
  exact ⟨fun x y s => exec_difference (exec_sub x y s) rfl, fun x y s => exec_difference (exec_subn x y s) rfl⟩

/-- Settles O29: the flag is the bit that the shift of the old value drops. -/
theorem shiftsMoveOneBitIntoFlag : Obligations.ShiftsMoveOneBitIntoFlag := by
  unfold Obligations.ShiftsMoveOneBitIntoFlag
  refine ⟨fun x y s => ⟨_, exec_shr x y s, fun hx => ?_, ?_, exec_frame rfl (exec_shr x y s)⟩,
    fun x y s => ⟨_, exec_shl x y s, fun hx => ?_, ?_, exec_frame rfl (exec_shl x y s)⟩⟩
  · rw [State.reg_setResultAndFlag_result s hx, shrResult_toNat]
  · rw [State.reg_setResultAndFlag_flag, flagByte_shrFlag_toNat]
  · rw [State.reg_setResultAndFlag_result s hx, shlResult_toNat]
  · rw [State.reg_setResultAndFlag_flag, flagByte_shlFlag_toNat]

/-! ### `RND` -/

theorem exec_rnd (x : Nibble) (kk : Byte) (s : State) :
    exec (.rnd x kk) s = .next (s.drawn.setReg x (Config.rnd s.draws &&& kk)).advance := rfl

/-- Settles O30: nothing is used of the random byte but that it is the one of this draw. -/
theorem rndMasksTheRandomByte : Obligations.RndMasksTheRandomByte := by
  unfold Obligations.RndMasksTheRandomByte
  intro x kk s
  refine ⟨_, exec_rnd x kk s, fun j => ?_, by simp, exec_frame_of_noFlag rfl (exec_rnd x kk s) rfl⟩
  rw [State.reg_setReg_advance, BitVec.getLsbD_and]

end Sys2Proof.Machine
end

section
/-! PROOFS. The display (43_display.md): `CLS`, a sprite drawn once, and the same sprite drawn twice. -/

namespace Sys2Proof.Machine

/-! ### `CLS` -/

theorem exec_cls (s : State) : exec .cls s = .next (s.setDisp Display.clear).advance := rfl

/-- Settles O31: the new display is the cleared one, and the frame has `V[15]` and `REDRAW` in it. -/
theorem clsClearsEveryPixel : Obligations.ClsClearsEveryPixel := by
  unfold Obligations.ClsClearsEveryPixel
  exact fun s => ⟨_, exec_cls s, Display.lit_clear, plainInstructionsAdvanceByTwo .cls s _ rfl (exec_cls s),
    exec_sameBut (exec_cls s)⟩

/-! ### A sprite drawn once -/

/-- A lit pixel is on the screen, which has the columns 0 to 63 and the rows 0 to 31 (R33). -/
theorem State.pixel_inside {s : State} {p q : Nat} (h : s.pixel p q = true) : p ≤ 63 ∧ q ≤ 31 := by
  have := Display.lit_inside h
  omega

theorem flagByte_toNat_eq_one (b : Bool) : (flagByte b).toNat = 1 ↔ b = true := by
  cases b <;> decide

theorem exec_drw (x y n : Nibble) (s : State) : exec (.drw x y n) s =
    .next (((s.setDisp (s.drawSprite x y n).1).setFlag (s.drawSprite x y n).2).setRedraw true).advance := rfl

section
variable {x y n : Nibble} {s t : State} (h : exec (.drw x y n) s = .next t)
include h

/-- `DRW` toggles the pixels of the sprite's set bits on the screen and no other (R181). -/
theorem drw_pixel (p q : Nat) :
    t.pixel p q = (s.pixel p q ^^ (decide (p < 64 ∧ q < 32) && s.spriteBit x y n p q)) := by
  cases h
  exact drawSprite_lit s x y n p q

theorem drw_pixel_inside {p q : Nat} (hp : p ≤ 63) (hq : q ≤ 31) :
    t.pixel p q = (s.pixel p q ^^ s.spriteBit x y n p q) := by
  have hinside : p < 64 ∧ q < 32 := by omega
  rw [drw_pixel h, decide_eq_true hinside, Bool.true_and]

/-- The flag of `DRW` is 1 exactly if a set bit of the sprite falls on a lit pixel (R181). -/
theorem drw_flag : (t.reg 15#4).toNat = 1 ↔
    ∃ p q, p ≤ 63 ∧ q ≤ 31 ∧ s.spriteBit x y n p q = true ∧ s.pixel p q = true := by
  have hflag : t.reg 15#4 = flagByte (s.drawSprite x y n).2 := by cases h; exact State.reg_setReg_same _ flagReg _
  rw [hflag, flagByte_toNat_eq_one, drawSprite_collision]
  constructor
  · rintro ⟨p, q, hbit, hlit⟩
    obtain ⟨hp, hq⟩ := State.pixel_inside hlit
    exact ⟨p, q, hp, hq, hbit, hlit⟩
  · rintro ⟨p, q, -, -, hbit, hlit⟩
    exact ⟨p, q, hbit, hlit⟩

theorem drw_redraw : t.redraw = true := by cases h; rfl

/-- `DRW` leaves its own sprite where it was, unless the flag takes the place of a coordinate (R182). -/
theorem drw_spriteBit (hx : x ≠ 15#4) (hy : y ≠ 15#4) (p q : Nat) :
    t.spriteBit x y n p q = s.spriteBit x y n p q := by
  obtain ⟨-, hreg, hparts⟩ := exec_frame rfl h
  have hvx : t.reg x = s.reg x := hreg x (by simpa [destinations] using hx)
  have hvy : t.reg y = s.reg y := hreg y (by simpa [destinations] using hy)
  have hi : t.i = s.i := hparts .index (by simp [writtenParts])
  have hmem : ∀ a, t.memRead a = s.memRead a := hparts .memory (by simp [writtenParts])
  simp only [State.spriteBit, State.base, hvx, hvy, hi, hmem]

end

/-- Settles O32: the closed forms of the pixels and of the flag, and the frame of a plain instruction. -/
theorem drwTogglesTheSpritesPixels : Obligations.DrwTogglesTheSpritesPixels := by
  unfold Obligations.DrwTogglesTheSpritesPixels
  intro x y n s
  have h := exec_drw x y n s
  exact ⟨_, h, fun p q => drw_pixel_inside h, drw_flag h, flagIsZeroOrOne _ _ _ rfl h, drw_redraw h, exec_frame rfl h⟩

/-! ### The same sprite drawn twice -/

/-- Settles O33: the second draw toggles the same pixels back, and finds lit, of those it toggles, the ones that the
first draw lit. -/
theorem drawingTwiceRestores : Obligations.DrawingTwiceRestores := by
  unfold Obligations.DrawingTwiceRestores
  intro x y n s hx hy
  obtain ⟨t, ht⟩ : ∃ t, exec (.drw x y n) s = .next t := ⟨_, exec_drw x y n s⟩
  obtain ⟨u, hu⟩ : ∃ u, exec (.drw x y n) t = .next u := ⟨_, exec_drw x y n t⟩
  have hbit := drw_spriteBit ht hx hy
  refine ⟨u, (execSeq_cons ht _).trans (execSeq_cons hu _), fun p q => ?_, ?_⟩
  · rw [drw_pixel hu, drw_pixel ht, hbit, Bool.xor_assoc, Bool.xor_self, Bool.xor_false]
  · rw [drw_flag hu]
    refine exists₂_congr fun p q => and_congr_right fun hp => and_congr_right fun hq => ?_
    rw [hbit, drw_pixel_inside ht hp hq]
    refine and_congr_right fun hset => ?_
    rw [hset, Bool.xor_true, Bool.not_eq_true']

end Sys2Proof.Machine
end

section
/-! PROOFS. Key skips, timer moves and the wait for a key (44_keys_timers.md). -/

namespace Sys2Proof.Machine

/-! ### Key skips -/

/-- A register's value names a key of R32 only up to 15, and then the key is its low nibble (R190, R191, D10). -/
theorem State.pressed_iff (s : State) (b : Byte) :
    s.pressed b = true ↔ b.toNat ≤ 15 ∧ s.keyDown (BitVec.ofNat 4 b.toNat) = true := by
  rw [State.pressed, Bool.and_eq_true, decide_eq_true_iff, BitVec.ofNat_toNat]

/-- `SKNP` skips on the negation of the test of `SKP` (R191). -/
theorem State.not_pressed_iff (s : State) (b : Byte) :
    (!s.pressed b) = true ↔ ¬ (b.toNat ≤ 15 ∧ s.keyDown (BitVec.ofNat 4 b.toNat) = true) := by
  rw [← s.pressed_iff b, Bool.not_eq_true', Bool.not_eq_true]

/-- Settles O34: both are skips, on the test of the named key and on its negation. -/
theorem keySkipsTestTheNamedKey : Obligations.KeySkipsTestTheNamedKey := by
  unfold Obligations.KeySkipsTestTheNamedKey
  exact ⟨fun x s => exec_skips (i := .skp x) rfl (s.pressed_iff (s.reg x)),
    fun x s => exec_skips (i := .sknp x) rfl (s.not_pressed_iff (s.reg x))⟩

/-! ### Timer moves -/

/-- Settles O35: the byte written, and the frame of a plain instruction that writes no flag. -/
theorem timerMoves : Obligations.TimerMoves := by
  unfold Obligations.TimerMoves
  refine ⟨fun x s => ?_, fun x s => ?_, fun x s => ?_⟩
  · have h := exec_ldVxDt x s
    exact ⟨_, h, s.reg_setReg_advance x s.dt, exec_frame_of_noFlag rfl h rfl⟩
  · have h := exec_ldDtVx x s
    exact ⟨_, h, rfl, plainInstructionsAdvanceByTwo _ _ _ rfl h, exec_sameBut h⟩
  · have h := exec_ldStVx x s
    exact ⟨_, h, rfl, plainInstructionsAdvanceByTwo _ _ _ rfl h, exec_sameBut h⟩

/-! ### The wait for a key -/

/-- A press while the core is blocked sets the key's flag, writes the awaited register and ends the wait, whatever keys
were held (R238). -/
theorem hostStep_press_blocked {s : State} {x : Nibble} (hw : s.wait = some x) (k : Nibble) :
    ∃ u, hostStep (.press k) s = .next u ∧ u.keyDown k = true ∧ (u.reg x).toNat = k.toNat ∧ u.wait = none ∧
      u.pc = s.pc ∧ sameRegsBut [x] s u := by
  obtain ⟨hrun, -⟩ | ⟨r, hr, hpress⟩ := hostPress_cases s k
  · cases hrun.symm.trans hw
  · cases hr.symm.trans hw
    refine ⟨_, congrArg Host.Outcome.next hpress, by simp, ?_, rfl, rfl, fun q hq => ?_⟩
    · have hk : (k.setWidth 8).toNat = k.toNat := BitVec.toNat_setWidth_of_le (by decide)
      simpa using hk
    · have hne : q ≠ x := List.mem_singleton.not.mp hq
      simp [hne]

theorem hostStep_release_keeps_wait (s : State) (k : Nibble) :
    ∃ u, hostStep (.release k) s = .next u ∧ u.wait = s.wait := ⟨s.hostRelease k, rfl, rfl⟩

/-- Settles O36: the instruction writes no register, so a register kept by the press holds what it held before the
wait. -/
theorem waitForKeyEndsAtThePress : Obligations.WaitForKeyEndsAtThePress := by
  unfold Obligations.WaitForKeyEndsAtThePress
  intro x s
  have h := exec_ldVxK x s
  obtain ⟨t, ht, hw⟩ : ∃ t, exec (.ldVxK x) s = .next t ∧ t.wait = some x := ⟨_, h, rfl⟩
  obtain ⟨hpc, -, hparts⟩ := exec_frame_of_noFlag rfl ht rfl
  have hregs : ∀ r, t.reg r = s.reg r := hparts .registers (by simp [writtenParts])
  refine ⟨t, ht, hw, hpc, hparts, fun k => ?_, fun k => ?_⟩
  · obtain ⟨u, hu, hkey, hreg, hwait, hpcu, hkept⟩ := hostStep_press_blocked hw k
    exact ⟨u, hu, hkey, hreg, hwait, hpcu, fun r hr => (hkept r hr).trans (hregs r)⟩
  · obtain ⟨u, hu, hwait⟩ := hostStep_release_keeps_wait t k
    exact ⟨u, hu, hwait.trans hw⟩

end Sys2Proof.Machine
end

section
/-! PROOFS. Index register and memory instructions (45_index_memory.md). -/

namespace Sys2Proof.Machine

/-- A plain instruction goes to `PC + 2` and leaves every part but those it writes (R116, R206). -/
theorem exec_plain_frame {i : Instr} {s t : State} (hpc : transfersControl i = false) (h : exec i s = .next t) :
    pcPlus 2 s t ∧ sameBut (writtenParts i) s t :=
  ⟨plainInstructionsAdvanceByTwo i s t hpc h, exec_sameBut h⟩

/-! ### The index register -/

section
variable (x : Nibble) (nnn : Addr) (s : State)

theorem exec_ldI : exec (.ldI nnn) s = .next (s.setI (addrOperand nnn)).advance := rfl

theorem exec_addI : exec (.addI x) s = .next (s.setI (s.i + wordOfByte (s.reg x))).advance := rfl

theorem exec_ldF : exec (.ldF x) s = .next (s.setI (wordOfByte (s.reg x) * 5#16)).advance := rfl

end

theorem add_wordOfByte_toNat (w : Word) (b : Byte) : (w + wordOfByte b).toNat = (w.toNat + b.toNat) % 65536 := by
  rw [BitVec.toNat_add, wordOfByte_toNat]

/-- Five times a byte is at most 1275, so 16 bits hold it (R202). -/
theorem wordOfByte_mul_five_toNat (b : Byte) : (wordOfByte b * 5#16).toNat = b.toNat * 5 := by
  have hb : b.toNat < 256 := b.isLt
  have hfit : b.toNat * 5 < 2 ^ 16 := by omega
  rw [BitVec.toNat_mul, wordOfByte_toNat]
  exact Nat.mod_eq_of_lt hfit

/-- Settles O37: the word written to `I`, and the frame of a plain instruction that writes only `I`. -/
theorem indexRegisterWrites : Obligations.IndexRegisterWrites := by
  unfold Obligations.IndexRegisterWrites
  exact ⟨fun nnn s => ⟨_, exec_ldI nnn s, addrOperand_toNat nnn, exec_plain_frame rfl (exec_ldI nnn s)⟩,
    fun x s => ⟨_, exec_addI x s, add_wordOfByte_toNat s.i (s.reg x), exec_plain_frame rfl (exec_addI x s)⟩,
    fun x s => ⟨_, exec_ldF x s, wordOfByte_mul_five_toNat (s.reg x), exec_plain_frame rfl (exec_ldF x s)⟩⟩

/-! ### Multi-byte stores -/

/-- Inside memory the byte `j` above a store's address is its byte `j` (R55, R59). -/
theorem State.memRead_store_inside (s : State) {a j : Nat} {bs : List Byte} (hj : j < bs.length)
    (hin : a + j ≤ 4095) : (s.store a bs).memRead (a + j) = bs.getD j 0x00#8 := by
  have hstored : a ≤ a + j ∧ a + j < a + bs.length ∧ a + j < 4096 := by omega
  rw [State.memRead_store, if_pos hstored, Nat.add_sub_cancel_left]

/-- A store changes no byte outside its own addresses (R55). -/
theorem State.memRead_store_outside (s : State) {a b : Nat} {bs : List Byte}
    (hb : ¬ (a ≤ b ∧ b < a + bs.length)) : (s.store a bs).memRead b = s.memRead b := by
  rw [State.memRead_store, if_neg fun ⟨hle, hlt, _⟩ => hb ⟨hle, hlt⟩]

/-! ### The decimal digits of a register -/

theorem exec_ldB (x : Nibble) (s : State) :
    exec (.ldB x) s = .next (s.store s.i.toNat (bcdDigits (s.reg x))).advance := rfl

/-- A number up to the value of a byte is a byte's value. -/
theorem ofNat_toNat_of_le_byte {n : Nat} {b : Byte} (h : n ≤ b.toNat) : (BitVec.ofNat 8 n).toNat = n :=
  Nat.mod_eq_of_lt (h.trans_lt b.isLt)

theorem bcdDigits_hundreds_toNat (b : Byte) : ((bcdDigits b).getD 0 0x00#8).toNat = b.toNat / 100 :=
  ofNat_toNat_of_le_byte (Nat.div_le_self _ _)

theorem bcdDigits_tens_toNat (b : Byte) : ((bcdDigits b).getD 1 0x00#8).toNat = b.toNat / 10 % 10 :=
  ofNat_toNat_of_le_byte ((Nat.mod_le _ _).trans (Nat.div_le_self _ _))

theorem bcdDigits_ones_toNat (b : Byte) : ((bcdDigits b).getD 2 0x00#8).toNat = b.toNat % 10 :=
  ofNat_toNat_of_le_byte (Nat.mod_le _ _)

/-- The state after `LD B, Vx` holds digit `j` at `I + j`, where that address is in memory (R203). -/
theorem ldB_memRead {x : Nibble} {s t : State} (h : exec (.ldB x) s = .next t) {j : Nat} (hj : j < 3)
    (hin : s.i.toNat + j ≤ 4095) : t.memRead (s.i.toNat + j) = (bcdDigits (s.reg x)).getD j 0x00#8 := by
  cases h
  exact s.memRead_store_inside hj hin

/-- Settles O38: a store of three bytes, the digits. -/
theorem bcdStoresThreeDigits : Obligations.BcdStoresThreeDigits := by
  unfold Obligations.BcdStoresThreeDigits
  intro x s
  have h := exec_ldB x s
  refine ⟨_, h, fun h0 => ?_, fun h1 => ?_, fun h2 => ?_, fun a ha => s.memRead_store_outside ha,
    exec_plain_frame rfl h⟩
  · rw [← bcdDigits_hundreds_toNat, ← ldB_memRead h (j := 0) (by decide) h0, Nat.add_zero]
  · rw [← bcdDigits_tens_toNat, ← ldB_memRead h (by decide) h1]
  · rw [← bcdDigits_ones_toNat, ← ldB_memRead h (by decide) h2]

/-! ### Block stores and block loads -/

/-- The state after `LD [I], Vx` holds `V[k]` at `I + k`, where that address is in memory (R204). -/
theorem storeRegs_memRead {x k : Nibble} {s t : State} (h : exec (.storeRegs x) s = .next t)
    (hk : k.toNat ≤ x.toNat) (hin : s.i.toNat + k.toNat ≤ 4095) :
    t.memRead (s.i.toNat + k.toNat) = s.reg k := by
  cases h
  exact s.memRead_store_regBlock hk hin

/-- The block of registers stored takes `X + 1` addresses from `I` on (R204). -/
theorem storeRegs_memRead_outside {x : Nibble} {s t : State} (h : exec (.storeRegs x) s = .next t) {a : Nat}
    (ha : ¬ (s.i.toNat ≤ a ∧ a < s.i.toNat + (x.toNat + 1))) : t.memRead a = s.memRead a := by
  rw [← s.regBlock_length x] at ha
  cases h
  exact s.memRead_store_outside ha

/-- Settles O39: the store of the register block, inside and outside its addresses. -/
theorem storeRegistersWritesTheBlock : Obligations.StoreRegistersWritesTheBlock := by
  unfold Obligations.StoreRegistersWritesTheBlock
  intro x s
  have h := exec_storeRegs x s
  exact ⟨_, h, fun k hk hin => storeRegs_memRead h hk hin, fun a ha => storeRegs_memRead_outside h ha,
    exec_plain_frame rfl h⟩

theorem exec_loadRegs (x : Nibble) (s : State) :
    exec (.loadRegs x) s = .next (s.setRegBlock x fun j => s.memRead (s.i.toNat + j)).advance := rfl

/-- `LD Vx, [I]` loads each register of the block with the byte read at its address (R205). -/
theorem loadRegs_reg {x k : Nibble} {s t : State} (h : exec (.loadRegs x) s = .next t) (hk : k.toNat ≤ x.toNat) :
    t.reg k = s.memRead (s.i.toNat + k.toNat) := by
  cases h
  exact (State.reg_setRegBlock s x k _).trans (if_pos hk)

/-- A byte read is 0x00 above 4095 (R54). -/
theorem State.memRead_eq_ite (s : State) (a : Nat) :
    s.memRead a = if a ≤ 4095 then s.memRead a else 0x00#8 := by
  split
  case isTrue => rfl
  case isFalse hout => exact Memory.read_outside s.mem a (Nat.lt_of_not_le hout)

/-- Settles O40: the registers of the block are the destinations, and each is loaded by a bounds-checked read. -/
theorem loadRegistersReadsTheBlock : Obligations.LoadRegistersReadsTheBlock := by
  unfold Obligations.LoadRegistersReadsTheBlock
  intro x s
  have h := exec_loadRegs x s
  obtain ⟨hpc, hkept, hparts⟩ := exec_frame_of_noFlag rfl h rfl
  refine ⟨_, h, fun k hk => ?_, fun k hk => hkept k ?_, hpc, hparts⟩
  · rw [loadRegs_reg h hk]
    exact s.memRead_eq_ite _
  · rw [mem_destinations_loadRegs]
    exact Nat.not_le_of_lt hk

/-- Settles O41: the load reads the bytes that the store wrote, which are the registers. -/
theorem storeThenLoadRestoresRegisters : Obligations.StoreThenLoadRestoresRegisters := by
  unfold Obligations.StoreThenLoadRestoresRegisters
  intro x s u hin hi hkept
  have hstore := exec_storeRegs x s
  have hload := exec_loadRegs x u
  refine ⟨_, hload, fun k hk => ?_⟩
  rw [loadRegs_reg hload hk, hi, hkept _ hstore k hk]
  exact storeRegs_memRead hstore hk (by omega)

end Sys2Proof.Machine
end

section
/-! PROOFS. Every step completes, and the operations of the host (60_exceptions.md). -/

namespace Sys2Proof.Machine

/-! ### Every step completes -/

/-- Every meaning is an update of the state, and none ends in a fault or a refusal (R220). -/
theorem exec_completes (i : Instr) (s : State) : completes (exec i s) := by
  cases i <;> exact ⟨_, rfl⟩

theorem cycle_completes (s : State) : completes (cycle s) := by
  obtain ⟨r, -, hblocked⟩ | ⟨i, -, hexec⟩ := cycle_cases s
  · exact ⟨s.tick, hblocked⟩
  · rw [hexec]; exact exec_completes i s.tick

theorem hostStep_completes (op : HostOp) (s : State) : completes (hostStep op s) := by
  cases op with
  | cycle => exact cycle_completes s
  | _ => exact ⟨_, rfl⟩

/-- Settles O4: a step is a cycle or an operation of the host, and both answer a next state. -/
theorem stepAlwaysCompletes : Obligations.StepAlwaysCompletes := by
  unfold Obligations.StepAlwaysCompletes
  refine ⟨exec_completes, fun s => ?_⟩
  obtain ⟨-, hcycle⟩ | ⟨op, rest, -, hop⟩ := step_cases (s := s) rfl
  · rw [hcycle]; exact cycle_completes s
  · rw [hop]; exact hostStep_completes op (s.setHostOps rest)

/-! ### Frames of the host's operations -/

section
variable {ps : List Part} {s t : State}

@[simp] theorem sameBut_setSoundPulse (h : .pulse ∈ ps) (b : Bool) :
    sameBut ps s (t.setSoundPulse b) ↔ sameBut ps s t :=
  sameBut_congr fun p hp => by cases p <;> simp_all [Part.same]

@[simp] theorem sameBut_setKey (h : .keys ∈ ps) (k : Nibble) (b : Bool) :
    sameBut ps s (t.setKey k b) ↔ sameBut ps s t :=
  sameBut_congr fun p hp => by cases p <;> simp_all [Part.same]

end

/-! ### `load`, `release` and `ack_redraw` -/

section
variable (s : State)

theorem hostStep_load (a : Nat) (bs : List Byte) :
    hostStep (.load a bs) s = .next ((s.store a bs).setSoundPulse false) := rfl

theorem hostStep_release (k : Nibble) :
    hostStep (.release k) s = .next ((s.setKey k false).setSoundPulse false) := rfl

theorem hostStep_ackRedraw : hostStep .ackRedraw s = .next ((s.setRedraw false).setSoundPulse false) := rfl

end

/-- Settles O14: a load is a store, whose bytes above 4095 are dropped. -/
theorem loadWritesItsBytes : Obligations.LoadWritesItsBytes := by
  unfold Obligations.LoadWritesItsBytes
  intro s a bs
  have hframe : sameBut [.memory, .pulse] s ((s.store a bs).setSoundPulse false) := by simp [sameBut.refl]
  exact ⟨_, hostStep_load s a bs, rfl, fun j hj hin => s.memRead_store_inside hj hin,
    fun b hb => s.memRead_store_outside hb, hframe⟩

/-- Settles O13: a release writes one key flag and `ack_redraw` writes `REDRAW`. -/
theorem releaseAndAckClearOneFlag : Obligations.ReleaseAndAckClearOneFlag := by
  unfold Obligations.ReleaseAndAckClearOneFlag
  refine ⟨fun s k => ?_, fun s => ?_⟩
  · have hframe : sameBut [.keys, .pulse] s ((s.setKey k false).setSoundPulse false) := by simp [sameBut.refl]
    exact ⟨_, hostStep_release s k, rfl, fun q => s.keyDown_setKey k q false, hframe⟩
  · have hframe : sameBut [.redrawFlag, .pulse] s ((s.setRedraw false).setSoundPulse false) := by
      simp [sameBut.refl]
    exact ⟨_, hostStep_ackRedraw s, rfl, rfl, hframe⟩

/-! ### `press` -/

section
variable (s : State) (k : Nibble)

theorem hostPress_pc : (s.hostPress k).pc = s.pc := by
  obtain ⟨-, hk⟩ | ⟨r, -, hk⟩ := hostPress_cases s k <;> rw [hk] <;> rfl

/-- After a press no core is blocked (R238). -/
theorem hostPress_wait : (s.hostPress k).wait = none := by
  obtain ⟨hw, hk⟩ | ⟨r, -, hk⟩ := hostPress_cases s k
  · rw [hk]; exact hw
  · rw [hk]; rfl

theorem hostPress_keyDown (q : Nibble) : (s.hostPress k).keyDown q = if q = k then true else s.keyDown q := by
  rw [← s.keyDown_setKey k q true]
  obtain ⟨-, hk⟩ | ⟨r, -, hk⟩ := hostPress_cases s k <;> rw [hk] <;> rfl

theorem hostPress_sameBut_running (hw : s.wait = none) : sameBut [.keys, .pulse] s (s.hostPress k) := by
  obtain ⟨-, hk⟩ | ⟨r, hr, -⟩ := hostPress_cases s k
  · simp [hk, sameBut.refl]
  · cases hw.symm.trans hr

theorem hostPress_sameBut_blocked {r : Nibble} (hw : s.wait = some r) :
    sameBut [.keys, .registers, .keyWait, .pulse] s (s.hostPress k) := by
  obtain ⟨hnone, -⟩ | ⟨r, -, hk⟩ := hostPress_cases s k
  · cases hnone.symm.trans hw
  · simp [hk, sameBut.refl]

end

/-- Settles O12: the flag and the frame in both modes, and the register of a blocked core. -/
theorem pressSetsFlagAndEndsWait : Obligations.PressSetsFlagAndEndsWait := by
  unfold Obligations.PressSetsFlagAndEndsWait
  intro s k
  refine ⟨s.hostPress k, rfl, hostPress_pc s k, hostPress_wait s k, hostPress_keyDown s k, fun r hw => ?_,
    hostPress_sameBut_running s k⟩
  obtain ⟨u, hu, -, hreg, -, -, hkept⟩ := hostStep_press_blocked hw k
  cases hu
  exact ⟨hreg, hkept, hostPress_sameBut_blocked s k hw⟩

/-! ### The two execution modes -/

/-- Only `LD Vx, K` starts a key wait (R34, R231). -/
theorem keyWait_mem_writtenParts {i : Instr} : .keyWait ∈ writtenParts i ↔ ∃ x, i = .ldVxK x := by
  cases i <;> simp [writtenParts]

theorem cycle_wait {s t : State} (h : cycle s = .next t) (hk : ∀ x, ¬ s.executes (.ldVxK x)) : t.wait = s.wait :=
  cycle_keeps_ticked h (p := .keyWait) fun i hi hmem => by
    obtain ⟨x, rfl⟩ := keyWait_mem_writtenParts.mp hmem
    exact hk x hi

/-- The transitions of a blocked core: a cycle only ticks, a press ends the wait and a release does not (R231, R114). -/
theorem blocked_transitions {s : State} {r : Nibble} (hw : s.wait = some r) :
    (∃ t, cycle s = .next t ∧ t.pc = s.pc ∧ sameBut [.delayTimer, .soundTimer, .pulse, .pulseCount] s t) ∧
    (∀ k, ∃ t, hostStep (.press k) s = .next t ∧ t.keyDown k = true ∧ (t.reg r).toNat = k.toNat ∧ t.wait = none) ∧
    (∀ k, ∃ t, hostStep (.release k) s = .next t ∧ t.keyDown k = false ∧ t.wait = some r) := by
  refine ⟨⟨s.tick, cycle_blocked hw, rfl, tick_sameBut s⟩, fun k => ?_, fun k => ?_⟩
  · obtain ⟨u, hu, hkey, hreg, hwait, -⟩ := hostStep_press_blocked hw k
    exact ⟨u, hu, hkey, hreg, hwait⟩
  · exact ⟨_, hostStep_release s k, s.keyDown_setKey_same k false, hw⟩

/-- Settles O10: `LD Vx, K` is the one instruction that writes the wait, and of the host's operations only a press and a
reset end it. -/
theorem executionModeTransitions : Obligations.ExecutionModeTransitions := by
  unfold Obligations.ExecutionModeTransitions pcPlus
  exact ⟨rfl, fun s x h => ⟨_, (cycle_executes h).trans (exec_ldVxK x s.tick), rfl, pc_add_two s.pc⟩,
    fun s t hw hk h => (cycle_wait h hk).trans hw, fun s r hw => blocked_transitions hw,
    fun s => ⟨s.hostReset, rfl, rfl⟩, fun s a bs => ⟨_, hostStep_load s a bs, rfl⟩,
    fun s => ⟨_, hostStep_ackRedraw s, rfl⟩⟩

end Sys2Proof.Machine
end

section
/-! PROOFS. The reset state (R40, R260), and a program image loaded after reset (R262). -/

namespace Sys2Proof.Machine

/-! ### What the reset state reads as -/

@[simp] theorem State.reset_reg (r : Nibble) : State.reset.reg r = 0x00#8 := by
  simp [State.reg, State.reset]

@[simp] theorem State.reset_slot (j : Byte) : State.reset.slot j = 0x0000#16 := by
  simp [State.slot, State.reset]

@[simp] theorem State.reset_keyDown (k : Nibble) : State.reset.keyDown k = false := by
  simp [State.keyDown, State.reset]

@[simp] theorem State.reset_pixel (x y : Nat) : State.reset.pixel x y = false := Display.lit_clear x y

/-- The font is the 80 bytes of R31, so an address from 80 on has the reset contents 0 (R30). -/
theorem unlistedByte_eq (a : Nat) : unlistedByte a = if a < 80 then fontTable.getD a 0x00#8 else 0x00#8 := by
  have hlength : fontTable.length = 80 := rfl
  unfold unlistedByte
  split
  · rfl
  · next ha => exact List.getD_eq_default _ _ (by omega)

/-- No cell is listed at reset: inside memory a byte has its reset contents, and outside it reads as 0 (R54). -/
theorem State.reset_memRead (a : Nat) :
    State.reset.memRead a = if a < 80 then fontTable.getD a 0x00#8 else 0x00#8 := by
  have hread : State.reset.memRead a = if a < 4096 then unlistedByte a else 0x00#8 := rfl
  rw [hread, unlistedByte_eq]
  by_cases ha : a < 80
  · simp [ha, show a < 4096 by omega]
  · simp [ha]

theorem State.reset_atReset : State.reset.atReset :=
  ⟨State.reset_reg, rfl, rfl, rfl, State.reset_slot, State.reset_memRead, State.reset_pixel, rfl, rfl,
    State.reset_keyDown, rfl, rfl, rfl⟩

/-! ### The host's reset -/

section
variable (s : State)

theorem hostStep_reset : hostStep .reset s = .next s.hostReset := rfl

@[simp] theorem State.hostReset_pc : s.hostReset.pc = 0x0200#16 := rfl

@[simp] theorem State.hostReset_wait : s.hostReset.wait = none := rfl

/-- The host's reset leaves the reset state, but for the draw counter, the count of pulses and the agenda, which are no
state of the core (log 18). -/
theorem State.hostReset_atReset : s.hostReset.atReset := State.reset_atReset

end

/-- Settles O1: the reset state field by field, and the host's reset, which differs from it in no field of the core. -/
theorem resetLeavesTheSpecsValues : Obligations.ResetLeavesTheSpecsValues := by
  unfold Obligations.ResetLeavesTheSpecsValues
  exact ⟨State.reset_atReset, fun s => ⟨_, hostStep_reset s, s.hostReset_atReset⟩⟩

/-! ### A program image -/

/-- A store at `PC` inside memory puts its first two bytes where the next fetch reads (R52, R111). -/
theorem fetchWord_store_at_pc (s : State) {hi lo : Byte} {rest : List Byte} (hin : s.pc.toNat + 1 ≤ 4095) :
    (s.store s.pc.toNat (hi :: lo :: rest)).fetchWord.toNat = hi.toNat * 256 + lo.toNat := by
  have hfirst : (s.store s.pc.toNat (hi :: lo :: rest)).memRead s.pc.toNat = hi :=
    s.memRead_store_inside (j := 0) (by simp) (by omega)
  have hsecond : (s.store s.pc.toNat (hi :: lo :: rest)).memRead (s.pc.toNat + 1) = lo :=
    s.memRead_store_inside (j := 1) (by simp) hin
  rw [fetchWord_toNat, State.store_pc, hfirst, hsecond]

@[simp] theorem fetchWord_setSoundPulse (s : State) (b : Bool) : (s.setSoundPulse b).fetchWord = s.fetchWord := rfl

/-- Settles O17: reset leaves the core running at 0x200, and the load puts the image's first word there. -/
theorem bootFetchesTheImage : Obligations.BootFetchesTheImage := by
  unfold Obligations.BootFetchesTheImage
  intro s hi lo rest
  have hpc : s.hostReset.pc.toNat = 0x200 := by simp
  have hword := fetchWord_store_at_pc s.hostReset (hi := hi) (lo := lo) (rest := rest) (by simp)
  rw [hpc] at hword
  exact ⟨_, _, hostStep_reset s, hostStep_load s.hostReset 0x200 (hi :: lo :: rest), hpc, s.hostReset_wait, hword⟩

end Sys2Proof.Machine
end
